-- ==== Sys2Proof/Word.lean ====
section
/-! DEFINITION. The word types of the block: a byte on a port or in a buffer, a 16-bit pixel (R90, R91). -/

namespace Sys2Proof

/-- One byte: a link byte, a buffer byte, a plane byte, an acknowledge byte (R66, R90). -/
abbrev Byte := BitVec 8

/-- One 16-bit RGB565 pixel (R91). -/
abbrev Pixel := BitVec 16

end Sys2Proof
end

