-- ==== Sys2Proof/Config.lean ====
section
/-! DEFINITION. What is fixed for the life of a model instance: the parameters of R11, the byte constants of R13, the
named test configuration of 95_test_vectors.md, and the free values (opaque constants with no body). -/

namespace Sys2Proof

/-- `FRAMING`: the deployment's framing (R11, D18). -/
inductive Framing where
  | cobs
  | text
  deriving DecidableEq, Repr, Inhabited

/-- `ENC_PLACE`: which context runs the encoder (R11, D9). -/
inductive EncPlace where
  | receive
  | refresh
  deriving DecidableEq, Repr, Inhabited

/-- `PIXEL_ORDER`: which of a pixel's two bytes lies lower (R64, D5). -/
inductive PixelOrder where
  | le
  | be
  deriving DecidableEq, Repr, Inhabited

/-- `BUFFERING`: only `single` is accepted (R14, R290). -/
inductive Buffering where
  | single
  | double
  deriving DecidableEq, Repr, Inhabited

/-- The three byte arrays (R60). -/
inductive Buf where
  | fb
  | bps
  | rxb
  deriving DecidableEq, Repr, Inhabited

/-- A move of the environment between two steps of the block (R9, R48): it offers one more link byte (D33), or the
pixel shifter becomes able or unable to accept a byte (R170). -/
inductive EnvMove where
  | offer (d : Byte)
  | shifter (ready : Bool)
  deriving DecidableEq, Repr, Inhabited

/-- Who moves next (R9, R318, D44): the receive context, the refresh context, or the environment. -/
inductive Turn where
  | rx
  | rf
  | env (m : EnvMove)
  deriving DecidableEq, Repr, Inhabited

/-- The parameters of a model instance (R11). `depth` and `buffering` are what the deployment asks for: any value but
6 and `single` is refused (R14). `tUnit` and `tLatch` are the durations the labels carry, in a unit of time the model
does not fix (R176, log 20). -/
structure Config where
  width : Nat
  height : Nat
  depth : Nat
  gamma : Vector Byte 256
  framing : Framing
  encPlace : EncPlace
  rxcap : Nat
  pixelOrder : PixelOrder
  addrBits : Nat
  tUnit : Nat
  tLatch : Nat
  buffering : Buffering
  deriving DecidableEq, Repr

namespace Config

/-- FREE VALUE (log 7): what byte `i` of a buffer holds after reset, "any value, drawn independently per byte" (R50). -/
opaque resetByte : Buf → Nat → Byte

/-- FREE VALUE (log 3): whose turn it is when no turn is known in advance: "any interleaving" (R318). -/
opaque freeTurn : Nat → Turn

/-- FREE VALUE (log 8): which member of a candidate set a read of the shared buffer returns, "a draw, under no law" (R72). -/
opaque freeDraw : Nat → Nat

/-- `GAMMA_ID[i] = i`, the test table of 40_bcm_encoder.md; it is not the hardware's table (D7). -/
def gammaId : Vector Byte 256 := ⟨⟨(List.range 256).map (BitVec.ofNat 8)⟩, by simp⟩

/-- The configuration `TINY` of 95_test_vectors.md, with the parameters `TINY` leaves open as arguments. -/
def tiny (f : Framing) (p : EncPlace) : Config where
  width := 2
  height := 2
  depth := 6
  gamma := gammaId
  framing := f
  encPlace := p
  rxcap := 16
  pixelOrder := .le
  addrBits := 1
  tUnit := 1
  tLatch := 1
  buffering := .single

end Config

/-- `DEPTH = 6` (R11): the bit-planes of a channel. -/
def depthBits : Nat := 6

/-- `COBS_TERM` (R13). -/
def cobsTermByte : Byte := 0x00
/-- `COBS_MAXCODE` (R13). -/
def cobsMaxCode : Byte := 0xFF
/-- `LF` (R13). -/
def lfByte : Byte := 0x0A
/-- `CR` (R13). -/
def crByte : Byte := 0x0D
/-- `SENT0` (R13). -/
def sent0Byte : Byte := 0xFF
/-- `SENT1` (R13). -/
def sent1Byte : Byte := 0x00
/-- `ACK_OK`, the letter `K` (R13, R108). -/
def ackOkByte : Byte := 0x4B
/-- `ACK_ERR`, the letter `E` (R13, R108). -/
def ackErrByte : Byte := 0x45
/-- `PAD`, the sign `=` (R13, R105). -/
def padByte : Byte := 0x3D

end Sys2Proof
end

