-- ==== Sys2Proof/Syntax.lean ====
section
/-! DEFINITION. The operations of the block: one constructor per row of spec/opcode_table.json, and the formats in
which a byte can stand for one of them (R90, R94, R99, R103, R108). -/

namespace Sys2Proof

/-- The operations of R95, R96, R99, R103, R108 and R112, in the order of spec/opcode_table.json. A class of many byte
values carries its byte; a class of one value, and an operation with no binary encoding, carries nothing. -/
inductive Instr where
  | cobsTerm
  | cobsData (d : Byte)
  | rawData (d : Byte)
  | textLf
  | textCr
  | textSent1
  | textData (d : Byte)
  | cobsCode0
  | cobsCode (c : Byte)
  | cobsCodeFF
  | b64Upper (d : Byte)
  | b64Lower (d : Byte)
  | b64Digit (d : Byte)
  | b64Plus
  | b64Slash
  | b64Pad
  | b64Invalid (d : Byte)
  | ackK
  | ackE
  | encStart
  | encPair
  | encEnd
  | sdBlank
  | sdShift
  | sdAddr
  | sdLatOn
  | sdLatOff
  | sdEnable
  | sdHold
  | sdBlankEnd
  | sdTake
  | hfPublish
  | hfTake
  | decCobs
  | decText
  deriving DecidableEq, Repr

/-- What a byte is read as. A link byte's class depends on the framing and, in text mode, on whether the raw fast path
is active and whether the record so far is a lone `0xFF` (`armed`) (R94, R96). -/
inductive Format where
  | linkCobs
  | linkText (raw : Bool) (armed : Bool)
  | code
  | sym
  | ack
  deriving DecidableEq, Repr

/-- Why a byte string stands for no operation. -/
inductive Reject where
  /-- there is no byte to read -/
  | noByte (f : Format)
  /-- "No other value is ever emitted on `link_out`" (R108) -/
  | notAnAcknowledge (d : Byte)
  deriving DecidableEq, Repr

end Sys2Proof
end

