-- ==== Sys2Proof/WellFormed.lean ====
section
/-! DEFINITION. Which terms of Instr the spec's tables admit: the byte an operation carries lies in its class
(R95, R96, R99, R103, R106). -/

namespace Sys2Proof

/-- `lo <= d <= hi` on the byte's value. -/
def Byte.within (d : Byte) (lo hi : Nat) : Bool := decide (lo ≤ d.toNat) && decide (d.toNat ≤ hi)

/-- The values of `B64.INVALID` (R106, R254). -/
def Byte.invalidSymbol (d : Byte) : Bool :=
  d.within 0x00 0x2A || d.within 0x2C 0x2E || d.within 0x3A 0x3C || d.within 0x3E 0x40 || d.within 0x5B 0x60
    || d.within 0x7B 0xFF

/-- The byte of each class lies in the class's values; an operation with no operand is always well formed. -/
def Instr.wf : Instr → Bool
  | .cobsData d => d.within 0x01 0xFF
  | .textData d => decide (d ≠ lfByte) && decide (d ≠ crByte)
  | .cobsCode c => c.within 0x01 0xFE
  | .b64Upper d => d.within 0x41 0x5A
  | .b64Lower d => d.within 0x61 0x7A
  | .b64Digit d => d.within 0x30 0x39
  | .b64Invalid d => d.invalidSymbol
  | .rawData _ => true
  | .cobsTerm => true
  | .textLf => true
  | .textCr => true
  | .textSent1 => true
  | .cobsCode0 => true
  | .cobsCodeFF => true
  | .b64Plus => true
  | .b64Slash => true
  | .b64Pad => true
  | .ackK => true
  | .ackE => true
  | .encStart => true
  | .encPair => true
  | .encEnd => true
  | .sdBlank => true
  | .sdShift => true
  | .sdAddr => true
  | .sdLatOn => true
  | .sdLatOff => true
  | .sdEnable => true
  | .sdHold => true
  | .sdBlankEnd => true
  | .sdTake => true
  | .hfPublish => true
  | .hfTake => true
  | .decCobs => true
  | .decText => true

end Sys2Proof
end

