-- ==== Sys2Proof/Decode.lean ====
section
/-! DEFINITION. From bytes to operations (R95, R96, R99, R103, R108) and back; the class tables of the link byte, the
COBS code byte, the text symbol and the acknowledge byte; the reading of an opcode-table word. -/

namespace Sys2Proof

/-- The class of a link byte when `FRAMING = COBS` (R95). -/
def classifyCobs (d : Byte) : Instr :=
  if d = cobsTermByte then .cobsTerm else .cobsData d

/-- The class of a link byte when `FRAMING = TEXT`, in order of precedence (R96). `armed` is the condition of R261:
the record so far is the single byte `0xFF`. -/
def classifyText (raw armed : Bool) (d : Byte) : Instr :=
  if raw = true then .rawData d
  else if d = lfByte then .textLf
  else if d = crByte then .textCr
  else if d = sent1Byte ∧ armed = true then .textSent1
  else .textData d

/-- The class of a COBS code byte (R99). -/
def decodeCode (c : Byte) : Instr :=
  if c = 0x00 then .cobsCode0
  else if c = cobsMaxCode then .cobsCodeFF
  else .cobsCode c

/-- The class of a stored text byte (R103, R248 to R254). -/
def decodeSym (d : Byte) : Instr :=
  if d.within 0x41 0x5A then .b64Upper d
  else if d.within 0x61 0x7A then .b64Lower d
  else if d.within 0x30 0x39 then .b64Digit d
  else if d = 0x2B then .b64Plus
  else if d = 0x2F then .b64Slash
  else if d = padByte then .b64Pad
  else .b64Invalid d

/-- The acknowledge byte (R108). -/
def decodeAck (d : Byte) : Except Reject Instr :=
  if d = ackOkByte then .ok .ackK
  else if d = ackErrByte then .ok .ackE
  else .error (.notAnAcknowledge d)

/-- The operation one byte stands for in a format. -/
def decodeByte (f : Format) (d : Byte) : Except Reject Instr :=
  match f with
  | .linkCobs => .ok (classifyCobs d)
  | .linkText raw armed => .ok (classifyText raw armed d)
  | .code => .ok (decodeCode d)
  | .sym => .ok (decodeSym d)
  | .ack => decodeAck d

/-- The first operation of a byte string read in a format, and the bytes after it. Every unit of R90 is one byte. -/
def decode (f : Format) (bytes : List Byte) : Except Reject (Instr × List Byte) :=
  match bytes with
  | [] => .error (.noByte f)
  | d :: rest =>
    match decodeByte f d with
    | .ok i => .ok (i, rest)
    | .error r => .error r

/-- The format an operation is read from; none for an operation with no binary encoding (R112). A text data byte is
given the format of an unarmed record, in which every one of its values is data (R96). -/
def formatOf : Instr → Option Format
  | .cobsTerm => some .linkCobs
  | .cobsData _ => some .linkCobs
  | .rawData _ => some (.linkText true false)
  | .textLf => some (.linkText false false)
  | .textCr => some (.linkText false false)
  | .textSent1 => some (.linkText false true)
  | .textData _ => some (.linkText false false)
  | .cobsCode0 => some .code
  | .cobsCode _ => some .code
  | .cobsCodeFF => some .code
  | .b64Upper _ => some .sym
  | .b64Lower _ => some .sym
  | .b64Digit _ => some .sym
  | .b64Plus => some .sym
  | .b64Slash => some .sym
  | .b64Pad => some .sym
  | .b64Invalid _ => some .sym
  | .ackK => some .ack
  | .ackE => some .ack
  | .encStart => none
  | .encPair => none
  | .encEnd => none
  | .sdBlank => none
  | .sdShift => none
  | .sdAddr => none
  | .sdLatOn => none
  | .sdLatOff => none
  | .sdEnable => none
  | .sdHold => none
  | .sdBlankEnd => none
  | .sdTake => none
  | .hfPublish => none
  | .hfTake => none
  | .decCobs => none
  | .decText => none

/-- The bytes of an operation, from the class tables of R95, R96, R99, R103 and R108; no byte for an operation with no
binary encoding (R112). -/
def encode : Instr → List Byte
  | .cobsTerm => [0x00]
  | .cobsData d => [d]
  | .rawData d => [d]
  | .textLf => [0x0A]
  | .textCr => [0x0D]
  | .textSent1 => [0x00]
  | .textData d => [d]
  | .cobsCode0 => [0x00]
  | .cobsCode c => [c]
  | .cobsCodeFF => [0xFF]
  | .b64Upper d => [d]
  | .b64Lower d => [d]
  | .b64Digit d => [d]
  | .b64Plus => [0x2B]
  | .b64Slash => [0x2F]
  | .b64Pad => [0x3D]
  | .b64Invalid d => [d]
  | .ackK => [0x4B]
  | .ackE => [0x45]
  | .encStart => []
  | .encPair => []
  | .encEnd => []
  | .sdBlank => []
  | .sdShift => []
  | .sdAddr => []
  | .sdLatOn => []
  | .sdLatOff => []
  | .sdEnable => []
  | .sdHold => []
  | .sdBlankEnd => []
  | .sdTake => []
  | .hfPublish => []
  | .hfTake => []
  | .decCobs => []
  | .decText => []

/-- The format an opcode-table word is read in (log 38). One byte value stands for several rows of the table, which
only the mode tells apart (R94, R110), and a table word carries no mode: a value that a row fixes whole is read in that
row's format (the first such row where there are several), every other value as the one row with an 8-bit field,
`COBS.CODE`. -/
def tableFormat (d : Byte) : Format :=
  if d = 0x00 then .linkCobs
  else if d = 0x0A ∨ d = 0x0D then .linkText false false
  else if d = 0x2B ∨ d = 0x2F ∨ d = 0x3D then .sym
  else if d = 0x4B ∨ d = 0x45 then .ack
  else .code

/-- The operation of an opcode-table word of `nbits` bits with value `w`. -/
def decodeTableWord (nbits w : Nat) : Option Instr :=
  if nbits = 8 ∧ w < 256 then
    match decode (tableFormat (BitVec.ofNat 8 w)) [BitVec.ofNat 8 w] with
    | .ok (i, _) => some i
    | .error _ => none
  else none

end Sys2Proof
end

