-- ==== Sys2Proof/Machine/State.lean ====
section
/-! DEFINITION. The state of the block (10_state.md, 20_memory.md), the reasons a step can stop, and the state after
reset (R50). -/

namespace Sys2Proof.Machine

/-- A byte array: the bytes something has written since reset, addresses strictly rising. A byte that is not listed
holds what reset left there, which is a free value (R50, log 7). -/
abbrev Memory := List Host.Cell

/-- The candidate sets of R72 that are not the singleton of the current byte: the byte's index and its set. A member is
`some v` for a value a write gave, `none` for what reset left in the byte (log 8). -/
abbrev CandMap := List (Nat × List (Option Byte))

/-- `rx_phase` (R36). -/
inductive RxPhase where
  | accept
  | encode
  deriving DecidableEq, Repr

/-- `sd_phase` (R46). -/
inductive SdPhase where
  | take
  | enc
  | blank
  | shift
  | addr
  | latOn
  | latOff
  | enable
  | hold
  | blankEnd
  deriving DecidableEq, Repr

/-- `oe_level` (R47). -/
inductive OeLevel where
  | enabled
  | disabled
  deriving DecidableEq, Repr

/-- `lat_level` (R47). -/
inductive LatLevel where
  | asserted
  | deasserted
  deriving DecidableEq, Repr

/-- The kinds of decode failure (R300). -/
inductive FailKind where
  | framing
  | length
  | overflow
  | accounting
  deriving DecidableEq, Repr

/-- Where a record decode stands. The spec gives no such register: a decode is one atomic part of its link byte's step
(R210, R242), and between steps the status is `idle` (log 26). -/
inductive DecStatus where
  | idle
  | running
  | ok
  | failed (k : FailKind)
  deriving DecidableEq, Repr

/-- The locals of a record decode: `n`, `i` and `o` of R210 and R243, `acc` and `k` of R242. -/
structure DecLocals where
  n : Nat
  i : Nat
  o : Nat
  acc : BitVec 24
  k : Nat
  status : DecStatus
  deriving DecidableEq, Repr

/-- No record is being decoded (R35). -/
def DecLocals.idle : DecLocals := { n := 0, i := 0, o := 0, acc := 0, k := 0, status := .idle }

/-- The events of the two traces (R18), the hold and latch labels (R176) and the failure labels (R300, R306). -/
inductive Event where
  /-- `RX` consumed a byte from `link_in` -/
  | linkIn (d : Byte)
  /-- an acknowledge byte on `link_out` -/
  | linkOut (d : Byte)
  /-- a publish (R280) -/
  | publish
  /-- `record Fail(kind)`: a trace label only (R300) -/
  | fail (k : FailKind)
  /-- the output-enable gate -/
  | oe (l : OeLevel)
  /-- `shiftByte(value)` -/
  | shift (d : Byte)
  /-- `setAddress(row)` -/
  | addr (row : Nat)
  /-- the latch, asserted and held for the labelled time (`T_LATCH`, R164, R176) -/
  | latAsserted (heldFor : Nat)
  /-- the latch, deasserted -/
  | latDeasserted
  /-- the hold label of R167 -/
  | hold (duration : Nat)
  deriving DecidableEq, Repr

/-- The whole machine. The first group of fields is the spec's state (R30 to R50); the last is the model's own
(INVENTORY.md says which is which). -/
structure State where
  rxLen : Nat
  rawRemaining : Nat
  rawOffset : Nat
  rxPhase : RxPhase
  encActive : Bool
  encR : Nat
  encX : Nat
  hfNew : Bool
  sdBit : Nat
  sdRow : Nat
  sdPhase : SdPhase
  sdCol : Nat
  oeLevel : OeLevel
  latLevel : LatLevel
  addrValue : Nat
  fb : Memory
  bps : Memory
  rxb : Memory
  cand : CandMap
  -- the model's own
  cfg : Config
  dec : DecLocals
  taken : Bool
  link : List Byte
  shifterReady : Bool
  sched : List Turn
  tick : Nat
  trace : List Event
  deriving DecidableEq, Repr

/-- Why the machine stops. Neither is reachable from reset with an accepted configuration (R309). -/
inductive Fault where
  /-- Raised by every buffer access (`readThen`, `writeByte`) whose index lies outside the buffer: "A model in which a
  rule would access out of bounds has a bug; it must fault, never return a value" (R67). Safe. -/
  | outOfBounds (b : Buf) (i : Nat)
  /-- Raised by `step` when the sequencer of the agent whose turn it is stands at a position no rule describes
  (`rx_phase = ENCODE` with no pass in progress, `sd_phase = TAKE` with `ENC_PLACE = RECEIVE`; log 34). Safe. -/
  | noOperationEnabled
  deriving DecidableEq, Repr

/-- Why the model refuses. -/
inductive Refusal where
  /-- Answered by an arm of `exec` whose operation has no meaning yet. Safe. -/
  | notModelled (mnemonic : String)
  /-- Answered by `step` before anything else when the configuration breaks R14: "A model must refuse any other
  configuration". Safe. -/
  | illFormedConfig
  deriving DecidableEq, Repr

/-- The state after reset of an instance with configuration `c` (R50). `enc_r`, `enc_x`, `sd_col`, `oe_level`,
`lat_level` and `addr_value` have no value in the spec: DESIGN CHOICE, log 9. The buffers list nothing: their bytes are
free values (log 7). -/
def State.resetWith (c : Config) : State where
  rxLen := 0
  rawRemaining := 0
  rawOffset := 0
  rxPhase := .accept
  encActive := false
  encR := 0
  encX := 0
  hfNew := false
  sdBit := 0
  sdRow := 0
  sdPhase := .blank
  sdCol := 0
  oeLevel := .enabled
  latLevel := .deasserted
  addrValue := 0
  fb := []
  bps := []
  rxb := []
  cand := []
  cfg := c
  dec := DecLocals.idle
  taken := false
  link := []
  shifterReady := true
  sched := []
  tick := 0
  trace := []

/-- The state after reset of the instance `TINY`, `FRAMING = COBS`, `ENC_PLACE = RECEIVE` (the configuration of program
P1): which instance reset shows is a DESIGN CHOICE, log 2. -/
def State.reset : State := State.resetWith (Config.tiny .cobs .receive)

end Sys2Proof.Machine
end

