-- ==== Sys2Proof/Machine/Operands.lean ====
section
/-! DEFINITION. Sizes and indices (R12, R61, R62), the acceptance of a configuration (R14), the pixel and its fields
(R64, R91, R132), the arithmetic of one sub-pixel (R133 to R137), and the value of a text symbol (R241). -/

namespace Sys2Proof.Machine

/-- `ROWS = H / 2` (R12). -/
def rows (c : Config) : Nat := c.height / 2

/-- `FRAME_PIXELS = W * H` (R12). -/
def framePixels (c : Config) : Nat := c.width * c.height

/-- `FRAME_BYTES = W * H * 2` (R12). -/
def frameBytes (c : Config) : Nat := c.width * c.height * 2

/-- `BPS_BYTES = ROWS * DEPTH * W` (R12). -/
def bpsBytes (c : Config) : Nat := rows c * depthBits * c.width

/-- `RXCAP_MIN(FRAMING)` (R12, R206). -/
def rxcapMin (c : Config) : Nat :=
  match c.framing with
  | .cobs => frameBytes c + frameBytes c / 254 + 1
  | .text => 4 * ((frameBytes c + 2) / 3)

/-- A well-formed configuration (R14); the durations are positive (R11). -/
def configOk (c : Config) : Bool :=
  decide (1 ≤ c.width) && decide (2 ≤ c.height) && decide (c.height % 2 = 0) && decide (c.depth = depthBits)
    && decide (rxcapMin c ≤ c.rxcap) && decide (rows c ≤ 2 ^ c.addrBits) && decide (c.buffering = .single)
    && decide (0 < c.tUnit) && decide (0 < c.tLatch)

/-- The length of a buffer (R61, R62, R63). -/
def bufLen (c : Config) : Buf → Nat
  | .fb => frameBytes c
  | .bps => bpsBytes c
  | .rxb => c.rxcap

/-- The buffer both agents touch (R70, R287). -/
def sharedBuf (c : Config) : Buf :=
  match c.encPlace with
  | .receive => .bps
  | .refresh => .fb

/-- The index of pixel `(x, y)`, row-major (R61, D4). -/
def pixelIndex (c : Config) (x y : Nat) : Nat := y * c.width + x

/-- `BPI(r, b, x)` (R62). -/
def bpi (c : Config) (r b x : Nat) : Nat := (r * depthBits + b) * c.width + x

/-- The pixel in the bytes `FB[2p]` and `FB[2p + 1]` (R64). -/
def pixelOf (o : PixelOrder) (b0 b1 : Byte) : Pixel :=
  match o with
  | .le => b1 ++ b0
  | .be => b0 ++ b1

/-- `R5 = P[15:11]` (R132). -/
def red5 (p : Pixel) : BitVec 5 := p.extractLsb' 11 5
/-- `G6 = P[10:5]` (R132). -/
def green6 (p : Pixel) : BitVec 6 := p.extractLsb' 5 6
/-- `B5 = P[4:0]` (R132). -/
def blue5 (p : Pixel) : BitVec 5 := p.extractLsb' 0 5

/-- `GAMMA[i]` (R41, R134). -/
def gammaAt (g : Vector Byte 256) (i : Byte) : Byte := g[i.toNat]'(by have := i.isLt; omega)

/-- Quantisation: the two low bits are dropped (R135). -/
def quantise (g : Byte) : BitVec 6 := (g >>> 2).setWidth 6

/-- `QR` and `QB` (R136). -/
def quant5 (g : Vector Byte 256) (v : BitVec 5) : BitVec 6 := quantise (gammaAt g (v.setWidth 8 <<< 3))

/-- `QG` (R136). -/
def quant6 (g : Vector Byte 256) (v : BitVec 6) : BitVec 6 := quantise (gammaAt g (v.setWidth 8 <<< 2))

/-- The six sub-pixel values `q0 .. q5` in the fixed order of R137. -/
def subPixels (g : Vector Byte 256) (u l : Pixel) : List (BitVec 6) :=
  [quant5 g (red5 u), quant6 g (green6 u), quant5 g (blue5 u), quant5 g (red5 l), quant6 g (green6 l), quant5 g (blue5 l)]

/-- Bits packed with the first at bit 0. -/
def packBits : List Bool → Byte
  | [] => 0
  | b :: bs => (packBits bs <<< 1) ||| (if b then 1 else 0)

/-- `plane(b)`: bit `k` is bit `b` of `q_k` (R137, R92). -/
def planeByte (qs : List (BitVec 6)) (b : Nat) : Byte := packBits (qs.map (fun q => q.getLsbD b))

/-- `B64VAL(d)` (R241). -/
def b64Val (d : Byte) : Option (BitVec 6) :=
  if d.within 0x41 0x5A then some ((d - 0x41).setWidth 6)
  else if d.within 0x61 0x7A then some ((d - 0x61 + 26).setWidth 6)
  else if d.within 0x30 0x39 then some ((d - 0x30 + 52).setWidth 6)
  else if d = 0x2B then some 62
  else if d = 0x2F then some 63
  else none

/-- The numeric code of a failure kind (R300). -/
def failCode : FailKind → Nat
  | .framing => 1
  | .length => 2
  | .overflow => 3
  | .accounting => 4

/-- The label of `SD.HOLD` at bit `b`: `(1 << b) * T_UNIT` (R167). -/
def holdLabel (c : Config) (b : Nat) : Nat := (1 <<< b) * c.tUnit

end Sys2Proof.Machine
end

