-- ==== Sys2Proof/Machine/Flags.lean ====
section
/-! DEFINITION. The derived flags (R34, R42): whether the raw fast path is active, whether a decode has failed, whether
a scan step starts a reader pass, and when an encoder step is enabled (R141, R142). -/

namespace Sys2Proof.Machine

/-- `raw_active` (R34). -/
def rawActive (s : State) : Bool := decide (0 < s.rawRemaining)

/-- The record being decoded has failed (R16). -/
def decFailed (s : State) : Bool :=
  match s.dec.status with
  | .failed _ => true
  | .idle => false
  | .running => false
  | .ok => false

/-- The scan driver stands at `(sd_bit, sd_row) = (0, 0)`: with `RECEIVE` its `BLANK` starts a reader pass (R73). -/
def startsReaderPass (s : State) : Bool :=
  decide (s.sdBit = 0) && decide (s.sdRow = 0) && decide (s.cfg.encPlace = .receive)

/-- `ENC.PAIR` is enabled (R141). -/
def encPairEnabled (s : State) : Bool := s.encActive && decide (s.encR < rows s.cfg)

/-- `ENC.END` is enabled (R142). -/
def encEndEnabled (s : State) : Bool := s.encActive && decide (s.encR = rows s.cfg)

end Sys2Proof.Machine
end

