-- ==== Sys2Proof/Machine/Ops.lean ====
section
/-! DEFINITION. The named operations of the machine: byte arrays, candidate sets and draws (R66, R71, R72), events,
the failure operations (R204, R211, R300, R303), the handoff (R280, R281) and the start of an encode pass (R140, R284). -/

namespace Sys2Proof.Machine

/-- What an operation answers. -/
abbrev Result := Host.Outcome State Fault Refusal

/-- One operation after another; a stop ends the sequence. -/
def andThen (r : Result) (k : State → Result) : Result :=
  match r with
  | .next s => k s
  | .fault f => .fault f
  | .refused q => .refused q

/-- As `andThen`, but nothing more happens to a record whose decode has failed: `raise Fail(kind)` "ends the current
record" (R16). -/
def unlessFailed (r : Result) (k : State → Result) : Result :=
  andThen r (fun s => if decFailed s then .next s else k s)

/-! ## Byte arrays -/

/-- The byte written at an index, if one was. -/
def memGet (m : Memory) (a : Nat) : Option Byte :=
  match m with
  | [] => none
  | (b, v) :: rest => if a = b then some v else memGet rest a

/-- Write one byte, keeping the addresses strictly rising. -/
def memSet (m : Memory) (a : Nat) (v : Byte) : Memory :=
  match m with
  | [] => [(a, v)]
  | (b, w) :: rest =>
    if a < b then (a, v) :: (b, w) :: rest
    else if a = b then (a, v) :: rest
    else (b, w) :: memSet rest a v

/-- The canonical form of a byte array: addresses strictly rising. (No entry can equal what an unlisted address reads
as: an unlisted address reads as `none`, a listed one as `some`.) -/
abbrev Memory.wf (m : Memory) : Prop := (m.map Prod.fst).Pairwise (· < ·)

/-- A buffer's contents. -/
def bufOf (s : State) : Buf → Memory
  | .fb => s.fb
  | .bps => s.bps
  | .rxb => s.rxb

/-- The value of a byte: what was written, or what reset left there (R50, log 7). -/
def cellValue (b : Buf) (i : Nat) (v : Option Byte) : Byte := v.getD (Config.resetByte b i)

/-! ## Candidate sets of the shared buffer (R72) -/

/-- The set listed for an index. -/
def candGet (m : CandMap) (i : Nat) : Option (List (Option Byte)) :=
  match m with
  | [] => none
  | (j, c) :: rest => if i = j then some c else candGet rest i

/-- List a set, keeping the indices strictly rising. -/
def candPut (m : CandMap) (i : Nat) (c : List (Option Byte)) : CandMap :=
  match m with
  | [] => [(i, c)]
  | (j, d) :: rest =>
    if i < j then (i, c) :: (j, d) :: rest
    else if i = j then (i, c) :: rest
    else (j, d) :: candPut rest i c

/-- Where a member stands in a set: what reset left first, then by value. -/
def candKey : Option Byte → Nat
  | none => 0
  | some v => v.toNat + 1

/-- Add a member to a set. -/
def candInsert (v : Option Byte) : List (Option Byte) → List (Option Byte)
  | [] => [v]
  | w :: rest =>
    if candKey v < candKey w then v :: w :: rest
    else if candKey v = candKey w then w :: rest
    else w :: candInsert v rest

/-- `cand(i)`: an index that is not listed has the singleton of its current byte (R38, R50). -/
def candOf (s : State) (i : Nat) : List (Option Byte) :=
  (candGet s.cand i).getD [memGet (bufOf s (sharedBuf s.cfg)) i]

/-- The sets after `MemWrite(S, i, v)`: `cand(i) <- cand(i) ∪ { v }` (R72). A set that is the singleton of the byte
just written is not listed. -/
def candAdd (s : State) (i : Nat) (v : Byte) : CandMap :=
  if candInsert (some v) (candOf s i) = [some v] ∧ candGet s.cand i = none then s.cand
  else candPut s.cand i (candInsert (some v) (candOf s i))

/-- "return any v in cand(i)": the one member, or a free choice among several (R72, log 8). -/
def candPick (c : List (Option Byte)) (t : Nat) : Option Byte :=
  match c with
  | [] => none
  | [v] => v
  | v :: w :: rest => ((v :: w :: rest)[Config.freeDraw t % (rest.length + 2)]?).getD v

/-- The start of a reader pass: "for all i: cand(i) <- { S[i] }" (R72, R73). -/
def startReaderPass (s : State) : State := { s with cand := [] }

/-! ## The byte accesses (R66, R67) -/

/-- What `MemRead(b, i)` returns: a draw when `b` is the shared buffer, whose reads are all the reader's (R70, R72);
the current byte otherwise (R71). -/
def readValue (s : State) (b : Buf) (i : Nat) : Byte :=
  cellValue b i (if b = sharedBuf s.cfg then candPick (candOf s i) s.tick else memGet (bufOf s b) i)

/-- A draw among several candidates uses up one free value; a read changes nothing else (R66). -/
def afterRead (s : State) (b : Buf) (i : Nat) : State :=
  if b = sharedBuf s.cfg ∧ 1 < (candOf s i).length then { s with tick := s.tick + 1 } else s

/-- Read byte `i` of a buffer and go on with it; outside the buffer is a fault (R67). -/
def readThen (s : State) (b : Buf) (i : Nat) (k : Byte → State → Result) : Result :=
  if i < bufLen s.cfg b then k (readValue s b i) (afterRead s b i) else .fault (.outOfBounds b i)

/-- The state after `MemWrite(b, i, v)` inside the buffer (R66, R72). -/
def storeByte (s : State) (b : Buf) (i : Nat) (v : Byte) : State :=
  { s with
    fb := if b = .fb then memSet s.fb i v else s.fb
    bps := if b = .bps then memSet s.bps i v else s.bps
    rxb := if b = .rxb then memSet s.rxb i v else s.rxb
    cand := if b = sharedBuf s.cfg then candAdd s i v else s.cand }

/-- `MemWrite(b, i, v)`; outside the buffer is a fault (R67). -/
def writeByte (s : State) (b : Buf) (i : Nat) (v : Byte) : Result :=
  if i < bufLen s.cfg b then .next (storeByte s b i v) else .fault (.outOfBounds b i)

/-! ## Events -/

/-- `emit(port, v)` (R16): the event at the end of the trace. -/
def emit (e : Event) (s : State) : State := { s with trace := s.trace ++ [e] }

/-- Take the first offered byte off the link (R200, D33). -/
def consumeLink (d : Byte) (rest : List Byte) (s : State) : State := emit (.linkIn d) { s with link := rest }

/-- One byte on `link_out`. -/
def acknowledge (d : Byte) (s : State) : State := emit (.linkOut d) s

/-! ## Failures and their recovery: the block's only exceptions (R300 to R303, R311) -/

/-- `raise Fail(kind)` inside a record decode: the record ends (R16), the kind is a trace label (R300). -/
def raiseFail (k : FailKind) (s : State) : State :=
  emit (.fail k) { s with dec := { s.dec with status := .failed k } }

/-- `RESET_ACCUM()` (R211). -/
def resetAccum (s : State) : State := { s with rxLen := 0 }

/-- `RESET_OVERFLOW()` (R204): in text mode the error is acknowledged. -/
def resetOverflow (s : State) : State :=
  match s.cfg.framing with
  | .cobs => { emit (.fail .overflow) s with rxLen := 0 }
  | .text => acknowledge ackErrByte { emit (.fail .overflow) s with rxLen := 0 }

/-- `ACCOUNTING_RESET()` (R303). -/
def accountingReset (s : State) : State :=
  acknowledge ackErrByte { emit (.fail .accounting) s with rawRemaining := 0, rawOffset := 0, rxLen := 0 }

/-! ## The record decode's own operations -/

/-- The start of a record decode: `i`, `o`, `acc` and `k` are 0, `n` is `rx_len` (R210, R243). -/
def startDecode (s : State) : State :=
  { s with dec := { n := s.rxLen, i := 0, o := 0, acc := 0, k := 0, status := .running } }

/-- After a decode's result is used its locals are gone (R35). -/
def endDecode (s : State) : State := { s with dec := DecLocals.idle }

/-- Move on to the next stored byte. -/
def advanceIn (s : State) : State := { s with dec := { s.dec with i := s.dec.i + 1 } }

/-- `MemWrite(FB, o, v) ; o <- o + 1`. -/
def storeOut (v : Byte) (s : State) : Result :=
  andThen (writeByte s .fb s.dec.o v) (fun t => .next { t with dec := { t.dec with o := t.dec.o + 1 } })

/-- One payload byte, with the check of the destination's capacity first (R207; `OUT(v)` of R243). -/
def outByte (v : Byte) (s : State) : Result :=
  if frameBytes s.cfg ≤ s.dec.o then .next (raiseFail .overflow s) else storeOut v s

/-- The end of a record decode that reached the record's end: the exact-length check (R208). -/
def finishDecode (s : State) : State :=
  if s.dec.o = frameBytes s.cfg then { s with dec := { s.dec with status := .ok } } else raiseFail .length s

/-! ## Handoff and the start of an encode pass -/

/-- `publish()` (R280). -/
def publish (s : State) : State := emit .publish { s with hfNew := true }

/-- `takeIfNew()` (R281): `taken` is what it returns, true for a frame. -/
def takeIfNew (s : State) : State := { s with hfNew := false, taken := s.hfNew }

/-- The body of `ENC.START` (R140): with `REFRESH` a reader pass over `FB` starts (R73). -/
def startPass (s : State) : State :=
  match s.cfg.encPlace with
  | .receive => { s with encActive := true, encR := 0, encX := 0 }
  | .refresh => startReaderPass { s with encActive := true, encR := 0, encX := 0 }

/-- `POST_PUBLISH` (R284): with `RECEIVE` the publishing step takes the frame and starts the pass. -/
def postPublish (s : State) : State :=
  match s.cfg.encPlace with
  | .refresh => s
  | .receive =>
    if (takeIfNew s).taken = true then { startPass (takeIfNew s) with rxPhase := .encode } else takeIfNew s

end Sys2Proof.Machine
end

