-- ==== Sys2Proof/Machine/Encoder.lean ====
section
/-! DEFINITION. The operations of an encode pass: `ENC.START`, `ENC.PAIR`, `ENC.END` (R140 to R142). -/

namespace Sys2Proof.Machine

/-- `ENC.START` (R140). -/
def execEncStart (s : State) : Result := .next (startPass s)

/-- Read `PIX(x, y)`: two byte reads, each a draw of its own when `FB` is shared (R64, R66, R75). -/
def readPixelThen (s : State) (x y : Nat) (k : Pixel → State → Result) : Result :=
  readThen s .fb (2 * pixelIndex s.cfg x y) (fun b0 t =>
    readThen t .fb (2 * pixelIndex t.cfg x y + 1) (fun b1 u => k (pixelOf u.cfg.pixelOrder b0 b1) u))

/-- Write the plane bytes of a pair for each bit of a list (R137, R141). -/
def writePlanes (bits : List Nat) (r x : Nat) (qs : List (BitVec 6)) (s : State) : Result :=
  match bits with
  | [] => .next s
  | b :: rest => andThen (writeByte s .bps (bpi s.cfg r b x) (planeByte qs b)) (writePlanes rest r x qs)

/-- The next position of a pass: columns inner, rows outer (R141, D8). -/
def nextPair (s : State) : State :=
  if s.encX + 1 < s.cfg.width then { s with encX := s.encX + 1 } else { s with encX := 0, encR := s.encR + 1 }

/-- `ENC.PAIR` (R141). -/
def execEncPair (s : State) : Result :=
  readPixelThen s s.encX s.encR (fun u t =>
    readPixelThen t t.encX (t.encR + rows t.cfg) (fun l w =>
      andThen (writePlanes (List.range depthBits) w.encR w.encX (subPixels w.cfg.gamma u l) w)
        (fun z => .next (nextPair z))))

/-- `ENC.END` (R142). -/
def execEncEnd (s : State) : Result :=
  match s.cfg.encPlace with
  | .receive => .next { s with encActive := false, rxPhase := .accept }
  | .refresh => .next { s with encActive := false, sdPhase := .blank }

end Sys2Proof.Machine
end

