-- ==== Sys2Proof/Machine/Raw.lean ====
section
/-! DEFINITION. The raw binary fast path (R258 to R265): `TEXT.SENT1` and `RAW.DATA`; and the acknowledge bytes as
operations of their own (R108). -/

namespace Sys2Proof.Machine

/-- `TEXT.SENT1`: the second sentinel byte starts a raw payload (R260). -/
def execTextSent1 (s : State) : Result :=
  .next { s with rxLen := 0, rawRemaining := frameBytes s.cfg, rawOffset := 0 }

/-- The accounting check before every raw write (R262, R34). -/
def rawAccountsAgree (s : State) : Bool :=
  decide (s.rawOffset < frameBytes s.cfg) && decide (s.rawOffset + s.rawRemaining = frameBytes s.cfg)

/-- `RAW_COMPLETE()` (R263), and the encode pass that follows a publish (R284). -/
def rawComplete (s : State) : State := postPublish (acknowledge ackOkByte (publish { s with rawOffset := 0 }))

/-- The counters after one raw byte (R262). -/
def rawAdvance (s : State) : State :=
  { s with rawOffset := s.rawOffset + 1, rawRemaining := s.rawRemaining - 1 }

/-- `RAW.DATA` (R262). -/
def execRawData (d : Byte) (s : State) : Result :=
  if rawAccountsAgree s then
    andThen (writeByte s .fb s.rawOffset d) (fun t =>
      if (rawAdvance t).rawRemaining = 0 then .next (rawComplete (rawAdvance t)) else .next (rawAdvance t))
  else .next (accountingReset s)

/-- `ACK.K`: the byte `K` on `link_out` (R108). -/
def execAckK (s : State) : Result := .next (acknowledge ackOkByte s)

/-- `ACK.E`: the byte `E` on `link_out` (R108). -/
def execAckE (s : State) : Result := .next (acknowledge ackErrByte s)

end Sys2Proof.Machine
end

