-- ==== Sys2Proof/Machine/Scan.lean ====
section
/-! DEFINITION. The scan driver's operations (R161 to R169) and the handoff's (R280, R281). -/

namespace Sys2Proof.Machine

/-- `SD.BLANK` (R161): the event is emitted in every case (D40). -/
def execSdBlank (s : State) : Result :=
  if startsReaderPass s then
    .next (startReaderPass (emit (.oe .disabled)
      { s with oeLevel := .disabled, sdCol := s.cfg.width - 1, sdPhase := .shift }))
  else
    .next (emit (.oe .disabled) { s with oeLevel := .disabled, sdCol := s.cfg.width - 1, sdPhase := .shift })

/-- The column after a shift, or the next phase after the last column (R162). -/
def nextColumn (s : State) : State :=
  if 0 < s.sdCol then { s with sdCol := s.sdCol - 1 } else { s with sdPhase := .addr }

/-- `SD.SHIFT` (R162): while the pixel shifter cannot accept a byte, `RF` holds and nothing changes (R170). -/
def execSdShift (s : State) : Result :=
  if s.shifterReady then
    readThen s .bps (bpi s.cfg s.sdRow s.sdBit s.sdCol) (fun v t => .next (nextColumn (emit (.shift v) t)))
  else .next s

/-- `SD.ADDR` (R163). -/
def execSdAddr (s : State) : Result :=
  .next (emit (.addr s.sdRow) { s with addrValue := s.sdRow, sdPhase := .latOn })

/-- `SD.LAT_ON` (R164). -/
def execSdLatOn (s : State) : Result :=
  .next (emit (.latAsserted s.cfg.tLatch) { s with latLevel := .asserted, sdPhase := .latOff })

/-- `SD.LAT_OFF` (R165). -/
def execSdLatOff (s : State) : Result :=
  .next (emit .latDeasserted { s with latLevel := .deasserted, sdPhase := .enable })

/-- `SD.ENABLE` (R166). -/
def execSdEnable (s : State) : Result :=
  .next (emit (.oe .enabled) { s with oeLevel := .enabled, sdPhase := .hold })

/-- `SD.HOLD` (R167): a duration label only (R176). -/
def execSdHold (s : State) : Result :=
  .next (emit (.hold (holdLabel s.cfg s.sdBit)) { s with sdPhase := .blankEnd })

/-- The counters and the phase after an iteration (R168). -/
def nextIteration (s : State) : State :=
  if s.sdRow + 1 < rows s.cfg then { s with sdRow := s.sdRow + 1, sdPhase := .blank }
  else if s.sdBit + 1 < depthBits then { s with sdRow := 0, sdBit := s.sdBit + 1, sdPhase := .blank }
  else
    match s.cfg.encPlace with
    | .receive => { s with sdRow := 0, sdBit := 0, sdPhase := .blank }
    | .refresh => { s with sdRow := 0, sdBit := 0, sdPhase := .take }

/-- `SD.BLANK_END` (R168). -/
def execSdBlankEnd (s : State) : Result :=
  .next (nextIteration (emit (.oe .disabled) { s with oeLevel := .disabled }))

/-- `SD.TAKE` (R169): a new frame starts an encode pass in the refresh context. -/
def execSdTake (s : State) : Result :=
  if (takeIfNew s).taken = true then .next { startPass (takeIfNew s) with sdPhase := .enc }
  else .next { takeIfNew s with sdPhase := .blank }

/-- `HF.PUBLISH` (R280). -/
def execHfPublish (s : State) : Result := .next (publish s)

/-- `HF.TAKE` (R281). -/
def execHfTake (s : State) : Result := .next (takeIfNew s)

end Sys2Proof.Machine
end

