-- ==== Sys2Proof/Machine/Cobs.lean ====
section
/-! DEFINITION. The byte-stuffed framing: the code classes (R212 to R214), the record decoder `DEC.COBS` (R210) and the
link bytes `COBS.TERM` and `COBS.DATA` (R201, R203, R205). -/

namespace Sys2Proof.Machine

/-- "repeat n times: copy the next literal to `FB`" (R210): the capacity is checked before each byte (R207). -/
def copyLiterals (n : Nat) (s : State) : Result :=
  match n with
  | 0 => .next s
  | m + 1 =>
    if frameBytes s.cfg ≤ s.dec.o then .next (raiseFail .overflow s)
    else
      readThen s .rxb s.dec.i (fun v t =>
        andThen (storeOut v t) (fun u => copyLiterals m (advanceIn u)))

/-- The implicit zero after a block, unless the block ends the record (R99, R210). -/
def implicitZero (s : State) : Result :=
  if s.dec.i < s.dec.n then outByte 0x00 s else .next s

/-- `COBS.CODE0`: a zero code byte inside a record (R212). -/
def execCobsCode0 (s : State) : Result := .next (raiseFail .framing s)

/-- `COBS.CODE`: `c - 1` literals and an implicit zero (R213); a block longer than the rest of its record fails before
any literal is written (R215). The locals stand after the code byte. -/
def execCobsCode (c : Byte) (s : State) : Result :=
  if s.dec.n < s.dec.i + (c.toNat - 1) then .next (raiseFail .framing s)
  else unlessFailed (copyLiterals (c.toNat - 1) s) implicitZero

/-- `COBS.CODEFF`: 254 literals and no implicit zero (R214). -/
def execCobsCodeFF (s : State) : Result :=
  if s.dec.n < s.dec.i + 254 then .next (raiseFail .framing s) else copyLiterals 254 s

/-- The operation of a code byte (R99). -/
def runCode (c : Byte) (s : State) : Result :=
  if c = 0x00 then execCobsCode0 s
  else if c = cobsMaxCode then execCobsCodeFF s
  else execCobsCode c s

/-- The block loop of R210. Every block uses at least its code byte, so `fuel = n` blocks are enough. -/
def cobsBlocks (fuel : Nat) (s : State) : Result :=
  match fuel with
  | 0 => .next s
  | f + 1 =>
    if s.dec.i < s.dec.n then
      readThen s .rxb s.dec.i (fun c t => unlessFailed (runCode c (advanceIn t)) (cobsBlocks f))
    else .next s

/-- `DEC.COBS(n)` with `n = rx_len` (R210): the result is left in the decode status. -/
def execDecCobs (s : State) : Result :=
  unlessFailed (cobsBlocks s.rxLen (startDecode s)) (fun t => .next (finishDecode t))

/-- What `COBS.TERM` does with the result of its decode (R201): no acknowledge byte in any case (R202). -/
def afterCobs (t : State) : State :=
  if t.dec.status = .ok then postPublish (publish (resetAccum (endDecode t))) else resetAccum (endDecode t)

/-- `COBS.TERM` (R201). -/
def execCobsTerm (s : State) : Result := andThen (execDecCobs s) (fun t => .next (afterCobs t))

/-- Store a link byte at the write cursor (R203, R246). -/
def storeRecord (d : Byte) (s : State) : Result :=
  andThen (writeByte s .rxb s.rxLen d) (fun t => .next { t with rxLen := t.rxLen + 1 })

/-- `COBS.DATA`: store (R203) or overflow (R205). -/
def execCobsData (d : Byte) (s : State) : Result :=
  if s.rxLen < s.cfg.rxcap then storeRecord d s else .next (resetOverflow s)

end Sys2Proof.Machine
end

