-- ==== Sys2Proof/Machine/Text.lean ====
section
/-! DEFINITION. The printable text framing: the symbol classes (R248 to R254), the record decoder `DEC.TEXT` (R243) and
the link bytes `TEXT.LF`, `TEXT.CR` and `TEXT.DATA` (R244 to R247). -/

namespace Sys2Proof.Machine

/-- `acc <- ((acc << 6) | v)[23:0] ; k <- k + 1` (R243). -/
def pushSextet (v : BitVec 6) (s : State) : State :=
  { s with dec := { s.dec with acc := (s.dec.acc <<< 6) ||| v.setWidth 24, k := s.dec.k + 1 } }

/-- `acc <- 0 ; k <- 0`, after a whole group (R243). -/
def clearGroup (s : State) : State := { s with dec := { s.dec with acc := 0, k := 0 } }

/-- The three bytes of a whole group (R104). -/
def outGroup (s : State) : Result :=
  unlessFailed (outByte (s.dec.acc.extractLsb' 16 8) s) (fun t =>
    unlessFailed (outByte (t.dec.acc.extractLsb' 8 8) t) (fun u =>
      unlessFailed (outByte (u.dec.acc.extractLsb' 0 8) u) (fun w => .next (clearGroup w))))

/-- One valid symbol with sextet value `v`: the fourth of a group outputs three bytes (R243, R248). -/
def acceptSextet (v : BitVec 6) (s : State) : Result :=
  if (pushSextet v s).dec.k = 4 then outGroup (pushSextet v s) else .next (pushSextet v s)

/-- `B64.UPPER` (R248). -/
def execB64Upper (d : Byte) (s : State) : Result := acceptSextet ((d - 0x41).setWidth 6) s

/-- `B64.LOWER` (R249). -/
def execB64Lower (d : Byte) (s : State) : Result := acceptSextet ((d - 0x61 + 26).setWidth 6) s

/-- `B64.DIGIT` (R250). -/
def execB64Digit (d : Byte) (s : State) : Result := acceptSextet ((d - 0x30 + 52).setWidth 6) s

/-- `B64.PLUS` (R251). -/
def execB64Plus (s : State) : Result := acceptSextet 62 s

/-- `B64.SLASH` (R252). -/
def execB64Slash (s : State) : Result := acceptSextet 63 s

/-- `B64.PAD`: skipped; "`acc`, `k` and `o` are unchanged" (R253). -/
def execB64Pad (s : State) : Result := .next s

/-- `B64.INVALID`: "invalid symbols are skipped (tolerant decode)" (R254). -/
def execB64Invalid (_d : Byte) (s : State) : Result := .next s

/-- The operation of a stored text byte (R103, R241). -/
def runSym (d : Byte) (s : State) : Result :=
  if d.within 0x41 0x5A then execB64Upper d s
  else if d.within 0x61 0x7A then execB64Lower d s
  else if d.within 0x30 0x39 then execB64Digit d s
  else if d = 0x2B then execB64Plus s
  else if d = 0x2F then execB64Slash s
  else if d = padByte then execB64Pad s
  else execB64Invalid d s

/-- The symbol loop of R243 over the next `m` stored bytes. -/
def textSymbols (m : Nat) (s : State) : Result :=
  match m with
  | 0 => .next s
  | r + 1 => readThen s .rxb s.dec.i (fun d t => unlessFailed (runSym d t) (fun u => textSymbols r (advanceIn u)))

/-- The bytes of a partial group at the record's end: two symbols give one, three give two, one gives none (R243, R255). -/
def flushGroup (s : State) : Result :=
  if s.dec.k = 2 then outByte (s.dec.acc.extractLsb' 4 8) s
  else if s.dec.k = 3 then
    unlessFailed (outByte (s.dec.acc.extractLsb' 10 8) s) (fun t => outByte (t.dec.acc.extractLsb' 2 8) t)
  else .next s

/-- `DEC.TEXT(n)` with `n = rx_len` (R243): the result is left in the decode status. -/
def execDecText (s : State) : Result :=
  unlessFailed (textSymbols s.rxLen (startDecode s)) (fun t =>
    unlessFailed (flushGroup t) (fun u => .next (finishDecode u)))

/-- What `TEXT.LF` does with the result of its decode (R244): publish, acknowledge, encode (R284, D39), or `E`. -/
def afterText (t : State) : State :=
  if t.dec.status = .ok then postPublish (acknowledge ackOkByte (publish (resetAccum (endDecode t))))
  else acknowledge ackErrByte (resetAccum (endDecode t))

/-- `TEXT.LF` (R244). -/
def execTextLf (s : State) : Result := andThen (execDecText s) (fun t => .next (afterText t))

/-- `TEXT.CR`: "no state changes and nothing is emitted" (R245). -/
def execTextCr (s : State) : Result := .next s

/-- `TEXT.DATA`: store (R246) or overflow (R247). -/
def execTextData (d : Byte) (s : State) : Result :=
  if s.rxLen < s.cfg.rxcap then storeRecord d s else .next (resetOverflow s)

end Sys2Proof.Machine
end

