-- ==== Sys2Proof/Machine/Dispatch.lean ====
section
/-! DEFINITION. The dispatch of an operation to its meaning: one arm per row of spec/opcode_table.json. -/

namespace Sys2Proof.Machine

def exec (i : Instr) (s : State) : Host.Outcome State Fault Refusal :=
  match i with
  | .cobsTerm => Sys2Proof.Machine.execCobsTerm s
  | .cobsData d => Sys2Proof.Machine.execCobsData d s
  | .rawData d => Sys2Proof.Machine.execRawData d s
  | .textLf => Sys2Proof.Machine.execTextLf s
  | .textCr => Sys2Proof.Machine.execTextCr s
  | .textSent1 => Sys2Proof.Machine.execTextSent1 s
  | .textData d => Sys2Proof.Machine.execTextData d s
  | .cobsCode0 => Sys2Proof.Machine.execCobsCode0 s
  | .cobsCode c => Sys2Proof.Machine.execCobsCode c s
  | .cobsCodeFF => Sys2Proof.Machine.execCobsCodeFF s
  | .b64Upper d => Sys2Proof.Machine.execB64Upper d s
  | .b64Lower d => Sys2Proof.Machine.execB64Lower d s
  | .b64Digit d => Sys2Proof.Machine.execB64Digit d s
  | .b64Plus => Sys2Proof.Machine.execB64Plus s
  | .b64Slash => Sys2Proof.Machine.execB64Slash s
  | .b64Pad => Sys2Proof.Machine.execB64Pad s
  | .b64Invalid d => Sys2Proof.Machine.execB64Invalid d s
  | .ackK => Sys2Proof.Machine.execAckK s
  | .ackE => Sys2Proof.Machine.execAckE s
  | .encStart => Sys2Proof.Machine.execEncStart s
  | .encPair => Sys2Proof.Machine.execEncPair s
  | .encEnd => Sys2Proof.Machine.execEncEnd s
  | .sdBlank => Sys2Proof.Machine.execSdBlank s
  | .sdShift => Sys2Proof.Machine.execSdShift s
  | .sdAddr => Sys2Proof.Machine.execSdAddr s
  | .sdLatOn => Sys2Proof.Machine.execSdLatOn s
  | .sdLatOff => Sys2Proof.Machine.execSdLatOff s
  | .sdEnable => Sys2Proof.Machine.execSdEnable s
  | .sdHold => Sys2Proof.Machine.execSdHold s
  | .sdBlankEnd => Sys2Proof.Machine.execSdBlankEnd s
  | .sdTake => Sys2Proof.Machine.execSdTake s
  | .hfPublish => Sys2Proof.Machine.execHfPublish s
  | .hfTake => Sys2Proof.Machine.execHfTake s
  | .decCobs => Sys2Proof.Machine.execDecCobs s
  | .decText => Sys2Proof.Machine.execDecText s

end Sys2Proof.Machine
end

