-- ==== Sys2Proof/Machine/Fetch.lean ====
section
/-! DEFINITION. What an agent does next: the turn (R318), the class of the next link byte (R200), the operation of a
sequencer position (R160, R284); and the placing of an opcode-table word where the next step runs it. -/

namespace Sys2Proof.Machine

/-- Whose turn it is, and the state once the turn is used up: a turn known in advance, else a free value (log 3). -/
def nextTurn (s : State) : Turn × State :=
  match s.sched with
  | t :: rest => (t, { s with sched := rest })
  | [] => (Config.freeTurn s.tick, { s with tick := s.tick + 1 })

/-- The condition of R261: the record so far is the single byte `0xFF`. -/
def sentinelArmed (s : State) : Bool :=
  decide (s.rxLen = 1) && decide (cellValue .rxb 0 (memGet s.rxb 0) = sent0Byte)

/-- The format the next link byte is read in (R95, R96, R200). -/
def linkFormat (s : State) : Format :=
  match s.cfg.framing with
  | .cobs => .linkCobs
  | .text => .linkText (rawActive s) (sentinelArmed s)

/-- The operation of a link byte in a state (R200). -/
def linkOp (s : State) (d : Byte) : Instr :=
  match s.cfg.framing with
  | .cobs => classifyCobs d
  | .text => classifyText (rawActive s) (sentinelArmed s) d

/-- The encoder step of an agent whose sequencer stands in an encode pass (R141, R142, R284); none where neither is
enabled. -/
def encoderOp (s : State) : Option Instr :=
  if encPairEnabled s then some .encPair else if encEndEnabled s then some .encEnd else none

/-- The operation of `rx_phase = ENCODE`, which only `RECEIVE` has (R36, R284). -/
def rxEncoderOp (s : State) : Option Instr :=
  match s.cfg.encPlace with
  | .receive => encoderOp s
  | .refresh => none

/-- The operation of the scan driver's phase (R160); `TAKE` and `ENC` occur only with `REFRESH` (R46). -/
def scanOp (s : State) : Option Instr :=
  match s.sdPhase with
  | .blank => some .sdBlank
  | .shift => some .sdShift
  | .addr => some .sdAddr
  | .latOn => some .sdLatOn
  | .latOff => some .sdLatOff
  | .enable => some .sdEnable
  | .hold => some .sdHold
  | .blankEnd => some .sdBlankEnd
  | .take =>
    match s.cfg.encPlace with
    | .receive => none
    | .refresh => some .sdTake
  | .enc =>
    match s.cfg.encPlace with
    | .receive => none
    | .refresh => encoderOp s

/-- A move of the environment (R9, R48): bytes wait on the link in order and without loss (R350, D33). -/
def environmentMoves (m : EnvMove) (s : State) : State :=
  match m with
  | .offer d => { s with link := s.link ++ [d] }
  | .shifter ready => { s with shifterReady := ready }

/-- The bytes of a table word placed first on the link, with the receive context about to read one, in a framing. -/
def offerNext (f : Framing) (bytes : List Byte) (s : State) : State :=
  { s with
    cfg := { s.cfg with framing := f }
    sched := .rx :: s.sched
    link := bytes ++ s.link
    rxPhase := .accept
    rawRemaining := 0
    rawOffset := 0
    rxLen := 0 }

/-- A record placed in `RXB`. -/
def placeRecord (record : List Byte) (s : State) : State :=
  { s with rxb := record.zipIdx.map (fun p => (p.2, p.1)), rxLen := record.length }

/-- Place an operation so that the next step performs it (log 39). A link byte goes first on the link. A COBS code byte
or a text symbol is placed as the record (a code byte with its literals, zeros, as far as they fit), with the
terminator that decodes it on the link. An acknowledge byte is brought about by the link byte that emits it: `K` by the
last byte of a raw payload, `E` by `LF` on an empty record. An operation with no encoding has no word. -/
def placeOp (i : Instr) (s : State) : State :=
  match i with
  | .cobsTerm => offerNext .cobs (encode i) s
  | .cobsData _ => offerNext .cobs (encode i) s
  | .rawData _ => { offerNext .text (encode i) s with rawRemaining := frameBytes s.cfg }
  | .textLf => offerNext .text (encode i) s
  | .textCr => offerNext .text (encode i) s
  | .textSent1 => placeRecord [sent0Byte] (offerNext .text (encode i) s)
  | .textData _ => offerNext .text (encode i) s
  | .cobsCode0 => placeRecord (encode i) (offerNext .cobs [cobsTermByte] s)
  | .cobsCode c =>
    placeRecord (c :: List.replicate (min (c.toNat - 1) (s.cfg.rxcap - 1)) 0x00) (offerNext .cobs [cobsTermByte] s)
  | .cobsCodeFF =>
    placeRecord (cobsMaxCode :: List.replicate (min 254 (s.cfg.rxcap - 1)) 0x00) (offerNext .cobs [cobsTermByte] s)
  | .b64Upper _ => placeRecord (encode i) (offerNext .text [lfByte] s)
  | .b64Lower _ => placeRecord (encode i) (offerNext .text [lfByte] s)
  | .b64Digit _ => placeRecord (encode i) (offerNext .text [lfByte] s)
  | .b64Plus => placeRecord (encode i) (offerNext .text [lfByte] s)
  | .b64Slash => placeRecord (encode i) (offerNext .text [lfByte] s)
  | .b64Pad => placeRecord (encode i) (offerNext .text [lfByte] s)
  | .b64Invalid _ => placeRecord (encode i) (offerNext .text [lfByte] s)
  | .ackK =>
    { offerNext .text [0x00] s with rawRemaining := 1, rawOffset := frameBytes s.cfg - 1 }
  | .ackE => offerNext .text [lfByte] s
  | .encStart => s
  | .encPair => s
  | .encEnd => s
  | .sdBlank => s
  | .sdShift => s
  | .sdAddr => s
  | .sdLatOn => s
  | .sdLatOff => s
  | .sdEnable => s
  | .sdHold => s
  | .sdBlankEnd => s
  | .sdTake => s
  | .hfPublish => s
  | .hfTake => s
  | .decCobs => s
  | .decText => s

end Sys2Proof.Machine
end

