-- ==== Sys2Proof/Machine/Step.lean ====
section
/-! DEFINITION. One step of the machine: the turn of the receive context, of the refresh context or of the environment
(R8, R9, R17, R318). -/

namespace Sys2Proof.Machine

/-- Run the operation a sequencer position names; a position that names none stops (log 34). -/
def runOp (o : Option Instr) (s : State) : Host.Outcome State Fault Refusal :=
  match o with
  | some i => exec i s
  | none => .fault .noOperationEnabled

/-- A step of `RX` (R200, R284): with no byte offered it holds, and a hold changes nothing (log 6). -/
def rxStep (s : State) : Host.Outcome State Fault Refusal :=
  match s.rxPhase with
  | .encode => runOp (rxEncoderOp s) s
  | .accept =>
    match s.link with
    | [] => .next s
    | d :: rest => exec (linkOp s d) (consumeLink d rest s)

/-- A step of `RF` performs exactly one phase (R160). -/
def rfStep (s : State) : Host.Outcome State Fault Refusal := runOp (scanOp s) s

/-- The move of one agent. -/
def turnStep (t : Turn) (s : State) : Host.Outcome State Fault Refusal :=
  match t with
  | .rx => rxStep s
  | .rf => rfStep s
  | .env m => .next (environmentMoves m s)

/-- One step: a configuration that breaks R14 is refused, otherwise one agent moves. -/
def step (s : State) : Host.Outcome State Fault Refusal :=
  if configOk s.cfg then turnStep (nextTurn s).1 (nextTurn s).2 else .refused .illFormedConfig

/-- `s` with an opcode-table word placed so that the next step performs it (log 39). -/
def State.withFetchWord (s : State) (nbits w : Nat) : State :=
  match decodeTableWord nbits w with
  | some i => placeOp i s
  | none => s

end Sys2Proof.Machine
end

