-- ==== Sys2Proof/Safety.lean ====
section
/-! DEFINITION. The terms claims are stated in: the invariant of the machine (R34, R174, R309), what a read may return
(R72), the reference functions of the spec (R138, R217, R256), and runs of one operation. -/

namespace Sys2Proof.Machine

/-- Every listed address lies below a length (R67). -/
abbrev Memory.below (m : Memory) (n : Nat) : Prop := ∀ p ∈ m, p.1 < n

/-- A listed candidate set is one of a byte inside the shared buffer, has more than one member, is sorted, and holds
the current byte (R72). -/
structure CandSetOk (s : State) (p : Nat × List (Option Byte)) : Prop where
  index_lt : p.1 < bufLen s.cfg (sharedBuf s.cfg)
  two_members : 2 ≤ p.2.length
  sorted : p.2.Pairwise (fun a b => candKey a < candKey b)
  holds_current : memGet (bufOf s (sharedBuf s.cfg)) p.1 ∈ p.2

/-- What every state of a run from reset satisfies: the ranges of 10_state.md, R34's accounting, R98's record, the
positions of both sequencers, R174's dark latch, R35's empty decode, the shape of the buffers and of the sets. -/
structure Inv (s : State) : Prop where
  config_ok : configOk s.cfg = true
  rx_len_le : s.rxLen ≤ s.cfg.rxcap
  raw_active : 0 < s.rawRemaining →
    s.rawOffset + s.rawRemaining = frameBytes s.cfg ∧ s.rxLen = 0 ∧ s.cfg.framing = .text
  raw_idle : s.rawRemaining = 0 → s.rawOffset = 0
  record_stored : ∀ i, i < s.rxLen → (memGet s.rxb i).isSome = true
  record_cobs : s.cfg.framing = .cobs → ∀ i, i < s.rxLen → memGet s.rxb i ≠ some cobsTermByte
  record_text : s.cfg.framing = .text → ∀ i, i < s.rxLen →
    memGet s.rxb i ≠ some lfByte ∧ memGet s.rxb i ≠ some crByte
  rx_in_pass : s.rxPhase = .encode ↔ s.encActive = true ∧ s.cfg.encPlace = .receive
  rf_in_pass : s.sdPhase = .enc ↔ s.encActive = true ∧ s.cfg.encPlace = .refresh
  take_only_refresh : s.sdPhase = .take → s.cfg.encPlace = .refresh
  pass_position : s.encActive = true →
    (s.encR < rows s.cfg ∧ s.encX < s.cfg.width) ∨ (s.encR = rows s.cfg ∧ s.encX = 0)
  sd_bit_lt : s.sdBit < depthBits
  sd_row_lt : s.sdRow < rows s.cfg
  sd_col_lt : s.sdPhase = .shift → s.sdCol < s.cfg.width
  cycle_end : s.sdPhase = .take ∨ s.sdPhase = .enc → s.sdBit = 0 ∧ s.sdRow = 0
  dark : s.sdPhase ≠ .blank → s.sdPhase ≠ .hold → s.sdPhase ≠ .blankEnd → s.oeLevel = .disabled
  lit : s.sdPhase = .hold ∨ s.sdPhase = .blankEnd → s.oeLevel = .enabled
  addr_lt : s.addrValue < 2 ^ s.cfg.addrBits
  receive_takes : s.cfg.encPlace = .receive → s.hfNew = false
  decode_idle : s.dec = DecLocals.idle
  fb_wf : s.fb.wf
  bps_wf : s.bps.wf
  rxb_wf : s.rxb.wf
  fb_below : Memory.below s.fb (frameBytes s.cfg)
  bps_below : Memory.below s.bps (bpsBytes s.cfg)
  rxb_below : Memory.below s.rxb s.cfg.rxcap
  planes_reserved : ∀ p ∈ s.bps, p.2.toNat < 64
  cand_sorted : (s.cand.map Prod.fst).Pairwise (· < ·)
  cand_ok : ∀ p ∈ s.cand, CandSetOk s p

/-- The latch is pulsed only while the output is disabled (R174, R348), with the phases that lead there. -/
abbrev LatchDark (s : State) : Prop :=
  s.sdPhase = .shift ∨ s.sdPhase = .addr ∨ s.sdPhase = .latOn ∨ s.sdPhase = .latOff ∨ s.sdPhase = .enable →
    s.oeLevel = .disabled

/-- `v` is a value a read of byte `i` of buffer `b` may return: a member of the candidate set when `b` is the shared
buffer (R72), the current byte otherwise (R71). -/
abbrev MayRead (s : State) (b : Buf) (i : Nat) (v : Byte) : Prop :=
  if b = sharedBuf s.cfg then ∃ m ∈ candOf s i, v = cellValue b i m else v = cellValue b i (memGet (bufOf s b) i)

/-- The current byte of a buffer, whether or not anything has written it. -/
abbrev currentByte (s : State) (b : Buf) (i : Nat) : Byte := cellValue b i (memGet (bufOf s b) i)

/-- Every candidate set has a member. -/
abbrev SetsNonempty (s : State) : Prop := ∀ i, candOf s i ≠ []

/-- What writes to the shared buffer do to the candidate sets (R72, R49): each set holds exactly its former members and,
for an index written, the byte now there. For writes that touch an index at most once. -/
abbrev SetsExtendedOn (s t : State) (written : Nat → Prop) : Prop :=
  ∀ j m, m ∈ candOf t j ↔ m ∈ candOf s j ∨ (written j ∧ m = memGet (bufOf t (sharedBuf s.cfg)) j)

/-- The candidate sets after writes to `FB` at some indices: with `REFRESH` they are the sets of `FB` and grow by what is
written, with `RECEIVE` they are those of `BPS` and do not change (R70, R72). -/
abbrev SetsAfterFrameWrites (s t : State) (written : Nat → Prop) : Prop :=
  (s.cfg.encPlace = .refresh → SetsExtendedOn s t written) ∧ (s.cfg.encPlace = .receive → t.cand = s.cand)

/-- The candidate sets after writes to `BPS` at some indices: the other way round (R70, R72). -/
abbrev SetsAfterPlaneWrites (s t : State) (written : Nat → Prop) : Prop :=
  (s.cfg.encPlace = .receive → SetsExtendedOn s t written) ∧ (s.cfg.encPlace = .refresh → t.cand = s.cand)

/-- Bit `b` of plane `plane(b)` for six values, as the sum of R137. -/
def planeSum (qs : List (BitVec 6)) (b : Nat) : Nat :=
  ((List.range 6).map (fun k => ((qs.getD k 0).getLsbD b).toNat * 2 ^ k)).sum

/-- `PIX(x, y)` of the current frame buffer (R64). -/
def currentPixel (s : State) (x y : Nat) : Pixel :=
  pixelOf s.cfg.pixelOrder (currentByte s .fb (2 * pixelIndex s.cfg x y)) (currentByte s .fb (2 * pixelIndex s.cfg x y + 1))

/-- `ENCODE(FB)` at `(r, b, x)` (R138), as a number. -/
def encodedByte (s : State) (r b x : Nat) : Nat :=
  planeSum (subPixels s.cfg.gamma (currentPixel s x r) (currentPixel s x (r + rows s.cfg))) b

/-- `BPS[BPI(r, b, x)]` holds `ENCODE(FB)` at `(r, b, x)` (R138). -/
abbrev HoldsEncoding (s : State) (r b x : Nat) : Prop :=
  ∃ w, memGet s.bps (bpi s.cfg r b x) = some w ∧ w.toNat = encodedByte s r b x

/-- No byte of `FB` has a candidate but its current one: it is not the shared buffer, or nothing has written it since
the reader pass began (R70, R72). -/
abbrev FrameQuiet (s : State) : Prop := s.cfg.encPlace = .receive ∨ s.cand = []

/-- While a pass over an unwritten frame is in progress, every pair before its position, rows outer and columns inner
(R141), holds `ENCODE(FB)`. -/
abbrev PassEncodes (s : State) : Prop :=
  s.encActive = true → FrameQuiet s ∧
    ∀ r b x, r < rows s.cfg → b < 6 → x < s.cfg.width → r < s.encR ∨ (r = s.encR ∧ x < s.encX) →
      HoldsEncoding s r b x

/-- The six channel values of an upper and a lower pixel in the order of R137, as numbers (R132). -/
def channels (u l : Pixel) : List Nat :=
  [u.toNat / 2048, u.toNat / 32 % 64, u.toNat % 32, l.toNat / 2048, l.toNat / 32 % 64, l.toNat % 32]

/-- The six sub-pixel values as numbers: the channel expanded by 8 or 4, corrected, and divided by 4 (R133 to R135). -/
def levels (g : Vector Byte 256) (u l : Pixel) : List Nat :=
  List.zipWith (fun f v => (gammaAt g (BitVec.ofNat 8 (f * v))).toNat / 4) [8, 4, 8, 8, 4, 8] (channels u l)

/-- What R139 and R177 call the weighted on-time of sub-pixel `k` in a refresh cycle: the sum of the hold labels of the
planes whose byte has bit `k` set. -/
def weightedOnTime (c : Config) (u l : Pixel) (k : Nat) : Nat :=
  ((List.range 6).map (fun b => ((planeByte (subPixels c.gamma u l) b).getLsbD k).toNat * holdLabel c b)).sum

/-- One operation performed again and again. -/
def repeatOp (n : Nat) (i : Instr) (s : State) : Result :=
  match n with
  | 0 => .next s
  | m + 1 => andThen (exec i s) (repeatOp m i)

/-- Turns of the refresh context one after another. -/
def rfTurns (n : Nat) (s : State) : Result :=
  match n with
  | 0 => .next s
  | m + 1 => andThen (rfStep s) (rfTurns m)

/-- The sextet an operation contributes (R248 to R252), as a number; none for a skipped symbol (R253, R254). -/
def sextetOf : Instr → Option Nat
  | .b64Upper d => some (d.toNat - 0x41)
  | .b64Lower d => some (d.toNat - 0x61 + 26)
  | .b64Digit d => some (d.toNat - 0x30 + 52)
  | .b64Plus => some 62
  | .b64Slash => some 63
  | .b64Pad => none
  | .b64Invalid _ => none
  | .cobsTerm => none
  | .cobsData _ => none
  | .rawData _ => none
  | .textLf => none
  | .textCr => none
  | .textSent1 => none
  | .textData _ => none
  | .cobsCode0 => none
  | .cobsCode _ => none
  | .cobsCodeFF => none
  | .ackK => none
  | .ackE => none
  | .encStart => none
  | .encPair => none
  | .encEnd => none
  | .sdBlank => none
  | .sdShift => none
  | .sdAddr => none
  | .sdLatOn => none
  | .sdLatOff => none
  | .sdEnable => none
  | .sdHold => none
  | .sdBlankEnd => none
  | .sdTake => none
  | .hfPublish => none
  | .hfTake => none
  | .decCobs => none
  | .decText => none

/-- The accumulator after a sextet: `((acc << 6) | v)[23:0]` (R243), as a number. -/
def accAfter (s : State) (v : Nat) : Nat := (s.dec.acc.toNat * 64 + v) % 2 ^ 24

/-- The canonical COBS encoder of R217 without its terminator: `blk` is the block being gathered. -/
def cobsEncode (blk : List Byte) : List Byte → List Byte
  | [] => BitVec.ofNat 8 (blk.length + 1) :: blk
  | d :: rest =>
    if d = 0x00 then (BitVec.ofNat 8 (blk.length + 1) :: blk) ++ cobsEncode [] rest
    else if blk.length + 1 = 254 then (0xFF :: (blk ++ [d])) ++ cobsEncode [] rest
    else cobsEncode (blk ++ [d]) rest

/-- The symbol of a sextet: the alphabet of R103. -/
def b64Symbol (v : Nat) : Byte :=
  if v < 26 then BitVec.ofNat 8 (0x41 + v)
  else if v < 52 then BitVec.ofNat 8 (0x61 + (v - 26))
  else if v < 62 then BitVec.ofNat 8 (0x30 + (v - 52))
  else if v = 62 then 0x2B
  else 0x2F

/-- The canonical padded Base64 encoder of R256. -/
def b64Encode : List Byte → List Byte
  | [] => []
  | [a] => [b64Symbol (a.toNat / 4), b64Symbol (a.toNat % 4 * 16), padByte, padByte]
  | [a, b] =>
    [b64Symbol (a.toNat / 4), b64Symbol (a.toNat % 4 * 16 + b.toNat / 16), b64Symbol (b.toNat % 16 * 4), padByte]
  | a :: b :: c :: rest =>
    b64Symbol (a.toNat / 4) :: b64Symbol (a.toNat % 4 * 16 + b.toNat / 16)
      :: b64Symbol (b.toNat % 16 * 4 + c.toNat / 64) :: b64Symbol (c.toNat % 64) :: b64Encode rest

/-- The payload of a COBS record up to its first malformed block, and whether there is none: a malformed block has the
code 0 or announces more literals than remain (R99, R210, R212, R215). Every block uses its code byte, so a fuel of the
record's length is enough. -/
def cobsBlocksOf : Nat → List Byte → List Byte × Bool
  | 0, _ => ([], true)
  | _ + 1, [] => ([], true)
  | fuel + 1, c :: rest =>
    if c = 0x00 ∨ rest.length < c.toNat - 1 then ([], false)
    else
      (rest.take (c.toNat - 1) ++ (if c ≠ 0xFF ∧ c.toNat - 1 < rest.length then [0x00] else []) ++
          (cobsBlocksOf fuel (rest.drop (c.toNat - 1))).1,
        (cobsBlocksOf fuel (rest.drop (c.toNat - 1))).2)

/-- The bytes a COBS record yields before its first malformed block (R210). -/
def cobsPayload (record : List Byte) : List Byte := (cobsBlocksOf record.length record).1

/-- Whether every block of a COBS record is well formed (R212, R215). -/
def cobsFramed (record : List Byte) : Bool := (cobsBlocksOf record.length record).2

/-- The bytes of a sequence of sextets: a whole group gives three, a final group of three gives two, of two gives one,
of one gives none, and left-over bits are dropped (R104, R243, R255). -/
def sextetBytes : List Nat → List Byte
  | [] => []
  | [_] => []
  | [a, b] => [BitVec.ofNat 8 (a * 4 + b / 16)]
  | [a, b, c] => [BitVec.ofNat 8 (a * 4 + b / 16), BitVec.ofNat 8 (b % 16 * 16 + c / 4)]
  | a :: b :: c :: d :: rest =>
    BitVec.ofNat 8 (a * 4 + b / 16) :: BitVec.ofNat 8 (b % 16 * 16 + c / 4) :: BitVec.ofNat 8 (c % 4 * 64 + d)
      :: sextetBytes rest

/-- The payload of a text record: its pads and invalid symbols skipped, its sextets grouped (R243). -/
def textPayload (record : List Byte) : List Byte :=
  sextetBytes (record.filterMap (fun d => (b64Val d).map BitVec.toNat))

/-- `RXB[0 .. rx_len)` holds a byte string. -/
abbrev HoldsRecord (s : State) (record : List Byte) : Prop :=
  s.rxLen = record.length ∧ ∀ i, i < record.length → memGet s.rxb i = some (record.getD i 0)

/-- `FB` holds a byte string from index 0. -/
abbrev HoldsFrame (s : State) (frame : List Byte) : Prop :=
  ∀ i, i < frame.length → memGet s.fb i = some (frame.getD i 0)

/-- Everything but what a record decode writes (`FB` from index `start` to its write position, the sets of a shared `FB`,
its own locals, failure labels) is unchanged (R210, R243); the sets grow by exactly the bytes written (R72). -/
abbrev SameButDecode (s t : State) (start : Nat) : Prop :=
  t = { s with fb := t.fb, cand := t.cand, dec := t.dec, trace := t.trace } ∧
    SetsAfterFrameWrites s t (fun j => start ≤ j ∧ j < t.dec.o)

/-- Everything but an encode pass's outputs (`BPS`, the sets, its position, the counter of free values) is unchanged
(R130). -/
abbrev SameButPass (s t : State) : Prop :=
  t = { s with bps := t.bps, cand := t.cand, encR := t.encR, encX := t.encX, tick := t.tick }

/-- What the receive context alone owns (R49, R70): the receive buffer and the decoder's registers, `FB`, the link. -/
abbrev SameReceiveSide (s t : State) : Prop :=
  t.rxLen = s.rxLen ∧ t.rawRemaining = s.rawRemaining ∧ t.rawOffset = s.rawOffset ∧ t.rxPhase = s.rxPhase ∧
    t.rxb = s.rxb ∧ t.fb = s.fb ∧ t.link = s.link ∧ t.dec = s.dec

/-- What the refresh context alone owns (R44 to R47, R49). -/
abbrev SameRefreshSide (s t : State) : Prop :=
  t.sdBit = s.sdBit ∧ t.sdRow = s.sdRow ∧ t.sdPhase = s.sdPhase ∧ t.sdCol = s.sdCol ∧ t.oeLevel = s.oeLevel ∧
    t.latLevel = s.latLevel ∧ t.addrValue = s.addrValue

/-- The bytes a list of events puts on `link_out`. -/
def ackBytes (es : List Event) : List Byte :=
  es.filterMap (fun e => match e with
    | .linkOut d => some d
    | .linkIn _ => none
    | .publish => none
    | .fail _ => none
    | .oe _ => none
    | .shift _ => none
    | .addr _ => none
    | .latAsserted _ => none
    | .latDeasserted => none
    | .hold _ => none)

/-- A block of a COBS record that ran out of room (R207, R210): the literals that fit are written up to the end of `FB`,
then the record fails. -/
structure BlockOverflowed (s t : State) : Prop where
  others : SameButDecode s t s.dec.o
  event : t.trace = s.trace ++ [.fail .overflow]
  locals : t.dec =
    { s.dec with
      i := s.dec.i + (frameBytes s.cfg - s.dec.o), o := frameBytes s.cfg, status := .failed .overflow }
  literals : ∀ j, s.dec.o + j < frameBytes s.cfg →
    memGet t.fb (s.dec.o + j) = some (currentByte s .rxb (s.dec.i + j))
  elsewhere : ∀ a, a < s.dec.o ∨ frameBytes s.cfg ≤ a → memGet t.fb a = memGet s.fb a

/-- A block of a COBS record copied (R213, R214): `len` literals and, with `zero`, one zero byte after them. -/
structure BlockCopied (s t : State) (len : Nat) (zero : Bool) : Prop where
  others : SameButDecode s t s.dec.o
  no_event : t.trace = s.trace
  read_position : t.dec.i = s.dec.i + len
  write_position : t.dec.o = s.dec.o + len + zero.toNat
  rest_of_locals : t.dec = { s.dec with i := t.dec.i, o := t.dec.o }
  literals : ∀ j, j < len → memGet t.fb (s.dec.o + j) = some (currentByte s .rxb (s.dec.i + j))
  zero_byte : zero = true → memGet t.fb (s.dec.o + len) = some 0x00
  elsewhere : ∀ a, a < s.dec.o ∨ s.dec.o + len + zero.toNat ≤ a → memGet t.fb a = memGet s.fb a

end Sys2Proof.Machine
end

