-- ==== Sys2Proof/Certificates/Slice0/Obligations.lean ====
section
/-! DEFINITION. What is to be proved of the machine. Each docstring names the rule a statement formalises. -/

open Sys2Proof Sys2Proof.Machine

/-! ## Encoding -/

/-- Words written out from the spec's tables decode to the operations they stand for (R95, R96, R99, R103, R108). -/
def Obligations.TableWordsDecode : Prop :=
  decode .linkCobs [0x00] = .ok (.cobsTerm, []) ∧ decode .linkCobs [0x42] = .ok (.cobsData 0x42, []) ∧
  decode (.linkText false false) [0x0A] = .ok (.textLf, []) ∧ decode (.linkText false true) [0x0D] = .ok (.textCr, []) ∧
  decode (.linkText false true) [0x00] = .ok (.textSent1, []) ∧
  decode (.linkText false false) [0x00] = .ok (.textData 0x00, []) ∧
  decode (.linkText true false) [0x0A] = .ok (.rawData 0x0A, []) ∧
  decode .code [0x00] = .ok (.cobsCode0, []) ∧ decode .code [0xFE] = .ok (.cobsCode 0xFE, []) ∧
  decode .code [0xFF] = .ok (.cobsCodeFF, []) ∧
  decode .sym [0x5A] = .ok (.b64Upper 0x5A, []) ∧ decode .sym [0x7A] = .ok (.b64Lower 0x7A, []) ∧
  decode .sym [0x39] = .ok (.b64Digit 0x39, []) ∧ decode .sym [0x2B] = .ok (.b64Plus, []) ∧
  decode .sym [0x2F] = .ok (.b64Slash, []) ∧ decode .sym [0x3D] = .ok (.b64Pad, []) ∧
  decode .sym [0x2D] = .ok (.b64Invalid 0x2D, []) ∧
  decode .ack [0x4B] = .ok (.ackK, []) ∧ decode .ack [0x45] = .ok (.ackE, [])

/-- Decoding the byte of a well-formed operation in its format gives the operation back, for every operand. -/
def Obligations.DecodeOfEncode : Prop :=
  ∀ (i : Instr) (f : Format), i.wf = true → formatOf i = some f → decode f (encode i) = .ok (i, [])

/-- What a byte decodes to in any format is well formed and encodes to that byte: no bit is dropped (R94). -/
def Obligations.EncodeOfDecode : Prop :=
  ∀ (f : Format) (d : Byte) (rest rest' : List Byte) (i : Instr),
    decode f (d :: rest) = .ok (i, rest') → rest' = rest ∧ encode i = [d] ∧ i.wf = true

/-- "every byte value has a class in every mode" (R109, R94): only an absent byte, and a byte that is no acknowledge
byte on `link_out` (R108), are rejected. -/
def Obligations.EveryByteHasAClass : Prop :=
  ∀ (f : Format) (bytes : List Byte),
    (∃ r, decode f bytes = .error r) ↔
      bytes = [] ∨ (f = .ack ∧ ∃ d rest, bytes = d :: rest ∧ d ≠ 0x4B ∧ d ≠ 0x45)

/-! ## The step -/

/-- A turn of `RX` in phase `ACCEPT` with a byte offered consumes it and runs exactly the operation it decodes to in
the state's format (R200): with `COBS` the COBS classes (R95); with `TEXT` the raw payload while `raw_remaining > 0`,
and the sentinel armed exactly when the record is the single byte `0xFF` (R96, R261). The turn is the next of the
known schedule, or a free value (log 3). -/
def Obligations.StepRunsDecodedLinkByte : Prop :=
  (∀ (s : State) (t : Turn) (rest : List Turn), s.sched = t :: rest → nextTurn s = (t, { s with sched := rest })) ∧
  (∀ s : State, s.sched = [] → nextTurn s = (Config.freeTurn s.tick, { s with tick := s.tick + 1 })) ∧
  (∀ (s s1 : State) (d : Byte) (ds : List Byte) (i : Instr),
    configOk s.cfg = true → nextTurn s = (.rx, s1) → s.rxPhase = .accept → s.link = d :: ds →
    decode (linkFormat s) (d :: ds) = .ok (i, ds) →
    step s = exec i { s1 with link := ds, trace := s.trace ++ [.linkIn d] }) ∧
  (∀ s : State, s.cfg.framing = .cobs → linkFormat s = .linkCobs) ∧
  (∀ s : State, s.cfg.framing = .text → linkFormat s =
    .linkText (decide (0 < s.rawRemaining)) (decide (s.rxLen = 1 ∧ currentByte s .rxb 0 = 0xFF)))

/-- A turn of `RF` runs the operation of its phase, and an agent in an encode pass the encoder step that is enabled
(R160, R169, R141, R142, R284). The turn is the model's (log 3). -/
def Obligations.StepRunsSequencedOperation : Prop :=
  ∀ (s s1 : State), configOk s.cfg = true →
    (nextTurn s = (.rf, s1) →
      (s.sdPhase = .blank → step s = exec .sdBlank s1) ∧ (s.sdPhase = .shift → step s = exec .sdShift s1) ∧
      (s.sdPhase = .addr → step s = exec .sdAddr s1) ∧ (s.sdPhase = .latOn → step s = exec .sdLatOn s1) ∧
      (s.sdPhase = .latOff → step s = exec .sdLatOff s1) ∧ (s.sdPhase = .enable → step s = exec .sdEnable s1) ∧
      (s.sdPhase = .hold → step s = exec .sdHold s1) ∧ (s.sdPhase = .blankEnd → step s = exec .sdBlankEnd s1) ∧
      (s.sdPhase = .take → s.cfg.encPlace = .refresh → step s = exec .sdTake s1) ∧
      (s.sdPhase = .enc → s.cfg.encPlace = .refresh → s.encActive = true →
        (s.encR < rows s.cfg → step s = exec .encPair s1) ∧ (s.encR = rows s.cfg → step s = exec .encEnd s1))) ∧
    (nextTurn s = (.rx, s1) → s.rxPhase = .encode → s.cfg.encPlace = .receive → s.encActive = true →
        (s.encR < rows s.cfg → step s = exec .encPair s1) ∧ (s.encR = rows s.cfg → step s = exec .encEnd s1))

/-- "await(a byte d is available on link_in)": with no byte offered a turn of `RX` changes nothing of the block (R200;
that a hold is a next state is the model's choice, log 6). -/
def Obligations.ReceiverHoldsWithoutByte : Prop :=
  ∀ (s : State) (rest : List Turn), configOk s.cfg = true → s.sched = .rx :: rest → s.rxPhase = .accept →
    s.link = [] → step s = .next { s with sched := rest }

/-- The environment offers bytes in order, without loss (D33), and sets the shifter's readiness (R170); it changes
nothing else. The two moves are the model's (logs 4, 5). -/
def Obligations.EnvironmentMovesOnly : Prop :=
  ∀ (s : State) (rest : List Turn) (d : Byte) (r : Bool), configOk s.cfg = true →
    (s.sched = .env (.offer d) :: rest → step s = .next { s with sched := rest, link := s.link ++ [d] }) ∧
    (s.sched = .env (.shifter r) :: rest → step s = .next { s with sched := rest, shifterReady := r })

/-- `step` refuses exactly the configurations that break R14 (with the positive durations of R11), and nothing else. -/
def Obligations.RefusesExactlyIllFormedConfigurations : Prop :=
  ∀ (s : State) (q : Refusal), step s = .refused q ↔
    q = .illFormedConfig ∧
      ¬ (1 ≤ s.cfg.width ∧ 2 ≤ s.cfg.height ∧ s.cfg.height % 2 = 0 ∧ s.cfg.depth = 6 ∧ s.cfg.buffering = .single ∧
        s.cfg.height / 2 ≤ 2 ^ s.cfg.addrBits ∧ 0 < s.cfg.tUnit ∧ 0 < s.cfg.tLatch ∧
        (s.cfg.framing = .cobs →
          s.cfg.width * s.cfg.height * 2 + s.cfg.width * s.cfg.height * 2 / 254 + 1 ≤ s.cfg.rxcap) ∧
        (s.cfg.framing = .text → 4 * ((s.cfg.width * s.cfg.height * 2 + 2) / 3) ≤ s.cfg.rxcap))

/-- The configuration is "fixed for its whole life" (R11). That it is a field of the state is the model's choice (log
1). -/
def Obligations.ConfigurationNeverChanges : Prop :=
  ∀ s t : State, step s = .next t → t.cfg = s.cfg

/-! ## Byte-stuffed framing -/

/-- `COBS.DATA`: store (R203), or overflow with no byte on `link_out` (R205). That the byte which finds the buffer
full is discarded is the spec's decision D22 (R204, log 23). -/
def Obligations.CobsDataStoresOrOverflows : Prop :=
  ∀ (s : State) (d : Byte),
    (s.rxLen < s.cfg.rxcap → ∃ t, exec (.cobsData d) s = .next t ∧
      t = { s with rxb := t.rxb, rxLen := s.rxLen + 1 } ∧
      ∀ a, memGet t.rxb a = if a = s.rxLen then some d else memGet s.rxb a) ∧
    (s.rxLen = s.cfg.rxcap → s.cfg.framing = .cobs →
      exec (.cobsData d) s = .next { s with rxLen := 0, trace := s.trace ++ [.fail .overflow] })

/-- `DEC.COBS` ends with success, having written exactly `FRAME_BYTES` bytes, or with one failure (R210, R208, R306);
it writes `FB` from index 0 to `o` and never at or above `FRAME_BYTES` (R207, R219), and nothing else of the block.
For every record it writes the payload of the blocks before the first malformed one as far as it fits, and the result
is `OVERFLOW` if that payload is too long, else `FRAMING` if a block is malformed (R212, R215), else success or
`LENGTH` as the payload has `FRAME_BYTES` bytes or fewer (R208), the empty record included (R216). The decode's locals
are the model's field (log 26); truncated and empty records are the spec's decisions D23 and D24 (log 24). -/
def Obligations.CobsDecodeCompletesInBounds : Prop :=
  ∀ s : State, s.rxLen ≤ s.cfg.rxcap → ∃ t, exec .decCobs s = .next t ∧ SameButDecode s t 0 ∧
    ((t.dec.status = .ok ∧ t.dec.o = frameBytes s.cfg ∧ t.trace = s.trace) ∨
      (∃ k, k ≠ .accounting ∧ t.dec.status = .failed k ∧ t.trace = s.trace ++ [.fail k])) ∧
    t.dec.o ≤ frameBytes s.cfg ∧ (∀ a, t.dec.o ≤ a → memGet t.fb a = memGet s.fb a) ∧
    (∀ record : List Byte, HoldsRecord s record →
      t.dec.o = min (cobsPayload record).length (frameBytes s.cfg) ∧
      (∀ j, j < t.dec.o → memGet t.fb j = (cobsPayload record)[j]?) ∧
      (t.dec.status = .ok ↔ cobsFramed record = true ∧ (cobsPayload record).length = frameBytes s.cfg) ∧
      (t.dec.status = .failed .length ↔
        cobsFramed record = true ∧ (cobsPayload record).length < frameBytes s.cfg) ∧
      (t.dec.status = .failed .framing ↔
        cobsFramed record = false ∧ (cobsPayload record).length ≤ frameBytes s.cfg) ∧
      (t.dec.status = .failed .overflow ↔ frameBytes s.cfg < (cobsPayload record).length))

/-- `COBS.TERM` decodes, empties the record, publishes on success and emits nothing (R201, R202, R211); with `RECEIVE`
the same step takes the frame and starts the pass (R284). `taken` is the model's field (log 30). -/
def Obligations.CobsTerminatorPublishesOnSuccess : Prop :=
  ∀ s : State, s.rxLen ≤ s.cfg.rxcap → ∃ d, exec .decCobs s = .next d ∧
    (d.dec.status ≠ .ok → exec .cobsTerm s = .next { d with dec := DecLocals.idle, rxLen := 0 }) ∧
    (d.dec.status = .ok → s.cfg.encPlace = .refresh →
      exec .cobsTerm s = .next
        { d with dec := DecLocals.idle, rxLen := 0, hfNew := true, trace := d.trace ++ [.publish] }) ∧
    (d.dec.status = .ok → s.cfg.encPlace = .receive →
      exec .cobsTerm s = .next
        { d with
          dec := DecLocals.idle, rxLen := 0, hfNew := false, taken := true, trace := d.trace ++ [.publish],
          encActive := true, encR := 0, encX := 0, rxPhase := .encode })

/-- `COBS.CODE0` is `raise Fail(FRAMING)` (R212), and a block that announces more literals than remain fails with
`FRAMING` before any of its literals is written (R215). That a truncated block fails so is the spec's decision D23
(log 24). -/
def Obligations.ZeroCodeAndTruncatedBlockFailFraming : Prop :=
  ∀ (s failed : State) (c : Byte),
    failed = { s with dec := { s.dec with status := .failed .framing }, trace := s.trace ++ [.fail .framing] } →
    exec .cobsCode0 s = .next failed ∧
    (s.dec.n < s.dec.i + (c.toNat - 1) → exec (.cobsCode c) s = .next failed) ∧
    (s.dec.n < s.dec.i + 254 → exec .cobsCodeFF s = .next failed)

/-- `COBS.CODE` and `COBS.CODEFF` that fit: the literals are copied in order, then one zero byte unless the code is
`0xFF` or the block ends the record; no other byte of `FB` changes (R99, R213, R214). The locals stand after the code
byte; `decFailed` says the record has not failed already. The locals are the model's field (log 26). -/
def Obligations.BlocksCopyTheirLiterals : Prop :=
  (∀ (s : State) (c : Byte), (Instr.cobsCode c).wf = true → decFailed s = false → s.dec.n ≤ s.cfg.rxcap →
    (s.dec.i + (c.toNat - 1) < s.dec.n → s.dec.o + c.toNat ≤ frameBytes s.cfg →
      ∃ t, exec (.cobsCode c) s = .next t ∧ BlockCopied s t (c.toNat - 1) true) ∧
    (s.dec.i + (c.toNat - 1) = s.dec.n → s.dec.o + (c.toNat - 1) ≤ frameBytes s.cfg →
      ∃ t, exec (.cobsCode c) s = .next t ∧ BlockCopied s t (c.toNat - 1) false)) ∧
  (∀ s : State, decFailed s = false → s.dec.n ≤ s.cfg.rxcap →
    s.dec.i + 254 ≤ s.dec.n → s.dec.o + 254 ≤ frameBytes s.cfg →
      ∃ t, exec .cobsCodeFF s = .next t ∧ BlockCopied s t 254 false)

/-- A block that would pass the destination's capacity ends the record with `OVERFLOW`: the literals that fit are
written, in order, and nothing at or above `FRAME_BYTES` (R207, R213, R214). So does a block whose literals fit and
whose implicit zero does not, code `0x01` at `o = FRAME_BYTES` among them (R210, V-C13). The locals are the model's
field (log 26). -/
def Obligations.OversizedBlockFailsOverflow : Prop :=
  ∀ (s : State) (c : Byte), decFailed s = false → s.dec.n ≤ s.cfg.rxcap → s.dec.o ≤ frameBytes s.cfg →
    (s.dec.i + (c.toNat - 1) ≤ s.dec.n → frameBytes s.cfg < s.dec.o + (c.toNat - 1) →
      ∃ t, exec (.cobsCode c) s = .next t ∧ BlockOverflowed s t) ∧
    (s.dec.i + (c.toNat - 1) < s.dec.n → s.dec.o + (c.toNat - 1) = frameBytes s.cfg →
      ∃ t, exec (.cobsCode c) s = .next t ∧ BlockOverflowed s t) ∧
    (s.dec.i + 254 ≤ s.dec.n → frameBytes s.cfg < s.dec.o + 254 →
      ∃ t, exec .cobsCodeFF s = .next t ∧ BlockOverflowed s t)

/-- Round trip (R217): the canonical COBS encoding of a frame, held as the record, decodes to that frame, and it is
never longer than `RXCAP_MIN(COBS)` and holds no terminator. -/
def Obligations.CobsRoundTrip : Prop :=
  ∀ (s : State) (frame : List Byte), frame.length = frameBytes s.cfg →
    (cobsEncode [] frame).length ≤ frame.length + frame.length / 254 + 1 ∧ 0x00 ∉ cobsEncode [] frame ∧
    (HoldsRecord s (cobsEncode [] frame) → s.rxLen ≤ s.cfg.rxcap →
      ∃ t, exec .decCobs s = .next t ∧ t.dec.status = .ok ∧ HoldsFrame t frame)

/-! ## Printable text framing -/

/-- `TEXT.DATA`: store (R246), or overflow acknowledged with `E` (R247, R204). What an overflow discards is the spec's
decision D22 (log 23), that every byte but `LF` and `CR` is stored its D41 (log 32). -/
def Obligations.TextDataStoresOrOverflows : Prop :=
  ∀ (s : State) (d : Byte),
    (s.rxLen < s.cfg.rxcap → ∃ t, exec (.textData d) s = .next t ∧
      t = { s with rxb := t.rxb, rxLen := s.rxLen + 1 } ∧
      ∀ a, memGet t.rxb a = if a = s.rxLen then some d else memGet s.rxb a) ∧
    (s.rxLen = s.cfg.rxcap → s.cfg.framing = .text →
      exec (.textData d) s =
        .next { s with rxLen := 0, trace := s.trace ++ [.fail .overflow, .linkOut 0x45] })

/-- `TEXT.CR`: "nothing; no state changes and nothing is emitted" (R245). -/
def Obligations.CarriageReturnIsIgnored : Prop :=
  ∀ s : State, exec .textCr s = .next s

/-- `DEC.TEXT` ends with success or with one failure, `OVERFLOW` or `LENGTH`, and writes `FB` in bounds (R243, R207).
For every record, with its final partial group of one, two or three symbols (R255), it writes the record's payload as
far as it fits, and succeeds, fails with `LENGTH` or fails with `OVERFLOW` as the payload has `FRAME_BYTES` bytes,
fewer or more. The decode's locals are the model's field (log 26); the groups are standard Base64's (log 25). -/
def Obligations.TextDecodeCompletesInBounds : Prop :=
  ∀ s : State, s.rxLen ≤ s.cfg.rxcap → ∃ t, exec .decText s = .next t ∧ SameButDecode s t 0 ∧
    ((t.dec.status = .ok ∧ t.dec.o = frameBytes s.cfg ∧ t.trace = s.trace) ∨
      (∃ k, (k = .overflow ∨ k = .length) ∧ t.dec.status = .failed k ∧ t.trace = s.trace ++ [.fail k])) ∧
    t.dec.o ≤ frameBytes s.cfg ∧ (∀ a, t.dec.o ≤ a → memGet t.fb a = memGet s.fb a) ∧
    (∀ record : List Byte, HoldsRecord s record →
      t.dec.o = min (textPayload record).length (frameBytes s.cfg) ∧
      (∀ j, j < t.dec.o → memGet t.fb j = (textPayload record)[j]?) ∧
      (t.dec.status = .ok ↔ (textPayload record).length = frameBytes s.cfg) ∧
      (t.dec.status = .failed .length ↔ (textPayload record).length < frameBytes s.cfg) ∧
      (t.dec.status = .failed .overflow ↔ frameBytes s.cfg < (textPayload record).length))

/-- `TEXT.LF`: publish and `K` on success, `E` on failure, an empty record in both cases (R244); with `RECEIVE` the
same step starts the pass after the acknowledge byte (R284). `taken` is the model's field (log 30); the order is D39's
(log 16). -/
def Obligations.LineFeedAcknowledges : Prop :=
  ∀ s : State, s.rxLen ≤ s.cfg.rxcap → ∃ d, exec .decText s = .next d ∧
    (d.dec.status ≠ .ok →
      exec .textLf s = .next { d with dec := DecLocals.idle, rxLen := 0, trace := d.trace ++ [.linkOut 0x45] }) ∧
    (d.dec.status = .ok → s.cfg.encPlace = .refresh →
      exec .textLf s = .next
        { d with
          dec := DecLocals.idle, rxLen := 0, hfNew := true, trace := d.trace ++ [.publish, .linkOut 0x4B] }) ∧
    (d.dec.status = .ok → s.cfg.encPlace = .receive →
      exec .textLf s = .next
        { d with
          dec := DecLocals.idle, rxLen := 0, hfNew := false, taken := true,
          trace := d.trace ++ [.publish, .linkOut 0x4B],
          encActive := true, encR := 0, encX := 0, rxPhase := .encode })

/-- A valid symbol that does not complete a group adds its sextet and writes nothing (R243, R248 to R252). -/
def Obligations.SymbolsAccumulateSextets : Prop :=
  ∀ (s : State) (i : Instr) (v : Nat), i.wf = true → sextetOf i = some v → s.dec.k + 1 ≠ 4 →
    exec i s = .next { s with dec := { s.dec with acc := BitVec.ofNat 24 (accAfter s v), k := s.dec.k + 1 } }

/-- The fourth symbol of a group outputs its three bytes, the most significant first (R104, R243, R248 to R252). -/
def Obligations.FourthSymbolOutputsGroup : Prop :=
  ∀ (s : State) (i : Instr) (v : Nat), i.wf = true → sextetOf i = some v → s.dec.k = 3 → decFailed s = false →
    s.dec.o + 3 ≤ frameBytes s.cfg →
    ∃ t, exec i s = .next t ∧ SameButDecode s t s.dec.o ∧ t.trace = s.trace ∧
      t.dec = { s.dec with acc := 0, k := 0, o := s.dec.o + 3 } ∧
      memGet t.fb s.dec.o = some (BitVec.ofNat 8 (accAfter s v / 2 ^ 16)) ∧
      memGet t.fb (s.dec.o + 1) = some (BitVec.ofNat 8 (accAfter s v / 2 ^ 8)) ∧
      memGet t.fb (s.dec.o + 2) = some (BitVec.ofNat 8 (accAfter s v)) ∧
      (∀ a, a < s.dec.o ∨ s.dec.o + 3 ≤ a → memGet t.fb a = memGet s.fb a)

/-- A group that does not fit ends the record with `OVERFLOW` "at the first byte that does not fit" (R248 to R252):
the bytes of the group that fit are written, the most significant first (R243). -/
def Obligations.OversizedGroupFailsOverflow : Prop :=
  ∀ (s : State) (i : Instr) (v : Nat), i.wf = true → sextetOf i = some v → s.dec.k = 3 → decFailed s = false →
    s.dec.o ≤ frameBytes s.cfg → frameBytes s.cfg < s.dec.o + 3 →
    ∃ t, exec i s = .next t ∧ SameButDecode s t s.dec.o ∧ t.trace = s.trace ++ [.fail .overflow] ∧
      t.dec.status = .failed .overflow ∧ t.dec.o = frameBytes s.cfg ∧
      (s.dec.o < frameBytes s.cfg → memGet t.fb s.dec.o = some (BitVec.ofNat 8 (accAfter s v / 2 ^ 16))) ∧
      (s.dec.o + 1 < frameBytes s.cfg → memGet t.fb (s.dec.o + 1) = some (BitVec.ofNat 8 (accAfter s v / 2 ^ 8))) ∧
      (∀ a, a < s.dec.o ∨ frameBytes s.cfg ≤ a → memGet t.fb a = memGet s.fb a)

/-- A pad and an invalid symbol are skipped: "`acc`, `k` and `o` are unchanged" (R253, R254). That a pad is skipped is
the spec's decision D26 (log 25). -/
def Obligations.PadAndInvalidAreSkipped : Prop :=
  ∀ (s : State) (d : Byte), exec .b64Pad s = .next s ∧ exec (.b64Invalid d) s = .next s

/-- Round trip (R256): the canonical Base64 text of a frame, held as the record, decodes to that frame; it is
`RXCAP_MIN(TEXT)` bytes long and holds no terminator. -/
def Obligations.TextRoundTrip : Prop :=
  ∀ (s : State) (frame : List Byte), frame.length = frameBytes s.cfg →
    (b64Encode frame).length = 4 * ((frame.length + 2) / 3) ∧ lfByte ∉ b64Encode frame ∧ crByte ∉ b64Encode frame ∧
    (HoldsRecord s (b64Encode frame) → s.rxLen ≤ s.cfg.rxcap →
      ∃ t, exec .decText s = .next t ∧ t.dec.status = .ok ∧ HoldsFrame t frame)

/-! ## Raw fast path and acknowledge bytes -/

/-- `TEXT.SENT1` (R260). -/
def Obligations.SentinelStartsRawPayload : Prop :=
  ∀ s : State, exec .textSent1 s =
    .next { s with rxLen := 0, rawRemaining := s.cfg.width * s.cfg.height * 2, rawOffset := 0 }

/-- `RAW.DATA` before the last byte: one byte of `FB`, the two counters, the set of that byte if `FB` is
shared (R72), nothing else (R262). -/
def Obligations.RawByteIsWrittenInPlace : Prop :=
  ∀ (s : State) (d : Byte), s.rawOffset + s.rawRemaining = frameBytes s.cfg → 1 < s.rawRemaining →
    ∃ t, exec (.rawData d) s = .next t ∧
      t = { s with
            fb := t.fb, cand := t.cand, rawOffset := s.rawOffset + 1, rawRemaining := s.rawRemaining - 1 } ∧
      (∀ a, memGet t.fb a = if a = s.rawOffset then some d else memGet s.fb a) ∧
      SetsAfterFrameWrites s t (fun j => j = s.rawOffset)

/-- The last raw byte completes the payload: publish, `K` once, then the encode pass with `RECEIVE` (R262, R263,
R284). `taken` is the model's field (log 30). -/
def Obligations.LastRawByteCompletes : Prop :=
  ∀ (s : State) (d : Byte), s.rawOffset + s.rawRemaining = frameBytes s.cfg → s.rawRemaining = 1 →
    ∃ t, exec (.rawData d) s = .next t ∧ SetsAfterFrameWrites s t (fun j => j = s.rawOffset) ∧
      (∀ a, memGet t.fb a = if a = s.rawOffset then some d else memGet s.fb a) ∧
      (s.cfg.encPlace = .refresh →
        t = { s with
              fb := t.fb, cand := t.cand, rawOffset := 0, rawRemaining := 0, hfNew := true,
              trace := s.trace ++ [.publish, .linkOut 0x4B] }) ∧
      (s.cfg.encPlace = .receive →
        t = { s with
              fb := t.fb, rawOffset := 0, rawRemaining := 0, hfNew := false, taken := true,
              trace := s.trace ++ [.publish, .linkOut 0x4B], encActive := true, encR := 0, encX := 0,
              rxPhase := .encode })

/-- A raw byte that finds the accounts broken resets the receive side and is discarded (R262, R303). What is reset is
the spec's decision D30 (log 28). -/
def Obligations.BrokenAccountingResets : Prop :=
  ∀ (s : State) (d : Byte),
    ¬ (s.rawOffset < frameBytes s.cfg ∧ s.rawOffset + s.rawRemaining = frameBytes s.cfg) →
    exec (.rawData d) s =
      .next { s with
              rawRemaining := 0, rawOffset := 0, rxLen := 0,
              trace := s.trace ++ [.fail .accounting, .linkOut 0x45] }

/-- `ACK.K` and `ACK.E` put their byte on `link_out` and do nothing else (R108). That these rows are operations of
their own is the model's choice (log 43). -/
def Obligations.AcknowledgeBytesAreEmitted : Prop :=
  ∀ s : State,
    exec .ackK s = .next { s with trace := s.trace ++ [.linkOut 0x4B] } ∧
    exec .ackE s = .next { s with trace := s.trace ++ [.linkOut 0x45] }

/-- Whole machine: a step adds to the trace and takes nothing back; it puts at most one byte on `link_out`, which is
`K` or `E`, and none with `FRAMING = COBS` (R108, R202, R304). The trace is the model's field (log 33). -/
def Obligations.OneAcknowledgeAtMost : Prop :=
  ∀ s t : State, step s = .next t → ∃ es, t.trace = s.trace ++ es ∧
    (∀ d ∈ ackBytes es, d = 0x4B ∨ d = 0x45) ∧ (ackBytes es).length ≤ 1 ∧ (s.cfg.framing = .cobs → ackBytes es = [])

/-! ## Encoder -/

/-- Channel extraction and the byte order of a pixel, as numbers (R64, R132). Positions and byte order are the spec's
decisions D3 and D5 (logs 10, 12). -/
def Obligations.PixelFieldsAsNumbers : Prop :=
  ∀ (p : Pixel) (b0 b1 : Byte),
    (red5 p).toNat = p.toNat / 2048 ∧ (green6 p).toNat = p.toNat / 32 % 64 ∧ (blue5 p).toNat = p.toNat % 32 ∧
    (pixelOf .le b0 b1).toNat = b1.toNat * 256 + b0.toNat ∧ (pixelOf .be b0 b1).toNat = b0.toNat * 256 + b1.toNat

/-- The composite per-channel function: expansion by 8 or 4, gamma, and the two low bits dropped (R133, R135, R136). -/
def Obligations.SubPixelValue : Prop :=
  ∀ (g : Vector Byte 256) (v : BitVec 5) (w : BitVec 6),
    (quant5 g v).toNat = (gammaAt g (BitVec.ofNat 8 (8 * v.toNat))).toNat / 4 ∧
    (quant6 g w).toNat = (gammaAt g (BitVec.ofNat 8 (4 * w.toNat))).toNat / 4

/-- `plane(b)` has bit `k` set when sub-pixel `k` has bit `b` set, and bits 7:6 clear (R92, R137). The order of the
bits is the spec's decision D6 (log 13). -/
def Obligations.PlaneByteHoldsSubPixelBits : Prop :=
  ∀ (g : Vector Byte 256) (u l : Pixel) (b k : Nat),
    (k < 6 → (planeByte (subPixels g u l) b).getLsbD k = ((subPixels g u l).getD k 0).getLsbD b) ∧
    (6 ≤ k → (planeByte (subPixels g u l) b).getLsbD k = false) ∧
    (planeByte (subPixels g u l) b).toNat = planeSum (subPixels g u l) b

/-- Brightness law: the hold labels of the planes in which a sub-pixel's bit is set sum to its value times `T_UNIT`,
and all six to `63 * T_UNIT` (R139, R177). The on-time is non-decreasing in the channel value, and each of `QR`, `QG`,
`QB` too, if `GAMMA` is non-decreasing, which the spec does not say and the statement assumes (R139). -/
def Obligations.BrightnessLaw : Prop :=
  ∀ (c : Config) (u l : Pixel),
    (∀ k, k < 6 →
      weightedOnTime c u l k = ((subPixels c.gamma u l).getD k 0).toNat * c.tUnit ∧
      weightedOnTime c u l k = (levels c.gamma u l).getD k 0 * c.tUnit) ∧
    ((List.range 6).map (holdLabel c)).sum = 63 * c.tUnit ∧
    ((∀ i j : Byte, i.toNat ≤ j.toNat → (gammaAt c.gamma i).toNat ≤ (gammaAt c.gamma j).toNat) →
      (∀ (u' l' : Pixel) (k : Nat), (channels u l).getD k 0 ≤ (channels u' l').getD k 0 →
        weightedOnTime c u l k ≤ weightedOnTime c u' l' k) ∧
      (∀ v w : BitVec 5, v.toNat ≤ w.toNat → (quant5 c.gamma v).toNat ≤ (quant5 c.gamma w).toNat) ∧
      (∀ v w : BitVec 6, v.toNat ≤ w.toNat → (quant6 c.gamma v).toNat ≤ (quant6 c.gamma w).toNat))

/-- `ENC.START` (R140): the position, and with `REFRESH` a fresh reader pass over `FB` (R73). -/
def Obligations.EncodeStartsAtOrigin : Prop :=
  ∀ s : State, ∃ t, exec .encStart s = .next t ∧
    t = { s with encActive := true, encR := 0, encX := 0, cand := t.cand } ∧
    (s.cfg.encPlace = .receive → t.cand = s.cand) ∧
    (s.cfg.encPlace = .refresh → ∀ i, candOf t i = [memGet t.fb i])

/-- `ENC.PAIR` (R141): two pixels read as the buffer allows, six plane bytes written at their indices, every other
byte of `BPS` unchanged, the sets of a shared `BPS` grown by the six bytes (R72), the position advanced, nothing else
changed. The size of the step and the order of the pass are the spec's decision D8 (log 15). -/
def Obligations.EncodePairWritesPlanes : Prop :=
  ∀ s : State, s.encR < rows s.cfg → s.encX < s.cfg.width → SetsNonempty s →
    ∃ (t : State) (u0 u1 l0 l1 : Byte), exec .encPair s = .next t ∧ SameButPass s t ∧
      MayRead s .fb (2 * pixelIndex s.cfg s.encX s.encR) u0 ∧
      MayRead s .fb (2 * pixelIndex s.cfg s.encX s.encR + 1) u1 ∧
      MayRead s .fb (2 * pixelIndex s.cfg s.encX (s.encR + rows s.cfg)) l0 ∧
      MayRead s .fb (2 * pixelIndex s.cfg s.encX (s.encR + rows s.cfg) + 1) l1 ∧
      (∀ b, b < 6 → ∃ w, memGet t.bps (bpi s.cfg s.encR b s.encX) = some w ∧
        w.toNat = planeSum (subPixels s.cfg.gamma (pixelOf s.cfg.pixelOrder u0 u1) (pixelOf s.cfg.pixelOrder l0 l1)) b) ∧
      (∀ a, (∀ b, b < 6 → a ≠ bpi s.cfg s.encR b s.encX) → memGet t.bps a = memGet s.bps a) ∧
      (s.encX + 1 < s.cfg.width → t.encX = s.encX + 1 ∧ t.encR = s.encR) ∧
      (¬ s.encX + 1 < s.cfg.width → t.encX = 0 ∧ t.encR = s.encR + 1) ∧
      SetsAfterPlaneWrites s t (fun j => ∃ b, b < 6 ∧ j = bpi s.cfg s.encR b s.encX) ∧
      (s.cfg.encPlace = .receive → t.tick = s.tick)

/-- `ENC.END` (R142, R285). -/
def Obligations.EncodeEndReturnsToItsAgent : Prop :=
  ∀ s : State,
    (s.cfg.encPlace = .receive → exec .encEnd s = .next { s with encActive := false, rxPhase := .accept }) ∧
    (s.cfg.encPlace = .refresh → exec .encEnd s = .next { s with encActive := false, sdPhase := .blank })

/-- A pass over a frame that no other agent writes leaves `BPS = ENCODE(FB)` (R143, R138), whatever turns of any agent
come between its steps: that every pair before the position holds `ENCODE(FB)` is kept by every step, from every
state, that leaves `FB` alone while the pass is in progress, and the step that ends the pass leaves all of `BPS` so.
Run back to back, `ROWS * W` pair steps end the pass, write no byte outside `BPS`, grow the sets of a shared `BPS` by
what they write, and change nothing else. -/
def Obligations.EncodePassYieldsReference : Prop :=
  (∀ s t : State, Inv s → PassEncodes s → step s = .next t → (s.encActive = true → t.fb = s.fb) →
    PassEncodes t ∧
    (s.encActive = true → t.encActive = false →
      ∀ r b x, r < rows t.cfg → b < 6 → x < t.cfg.width → HoldsEncoding t r b x)) ∧
  (∀ s : State, s.encR = 0 → s.encX = 0 → 1 ≤ s.cfg.width → FrameQuiet s →
    ∃ t, repeatOp (rows s.cfg * s.cfg.width) .encPair s = .next t ∧ SameButPass s t ∧
      t.encR = rows s.cfg ∧ t.encX = 0 ∧ t.tick = s.tick ∧
      SetsAfterPlaneWrites s t (fun j => j < bpsBytes s.cfg) ∧
      (∀ r b x, r < rows s.cfg → b < 6 → x < s.cfg.width →
        ∃ w, memGet t.bps (bpi s.cfg r b x) = some w ∧ w.toNat = encodedByte s r b x) ∧
      (∀ a, bpsBytes s.cfg ≤ a → memGet t.bps a = memGet s.bps a))

/-! ## Scan driver -/

/-- `SD.BLANK` (R161), and the fresh reader pass at `(0, 0)` with `RECEIVE` (R73). That the event is emitted in every
case is the spec's decision D40 (log 32), the extent of a reader pass its D38 (log 18). -/
def Obligations.BlankDisablesOutput : Prop :=
  ∀ s : State, ∃ t, exec .sdBlank s = .next t ∧
    t = { s with
          oeLevel := .disabled, sdCol := s.cfg.width - 1, sdPhase := .shift, cand := t.cand,
          trace := s.trace ++ [.oe .disabled] } ∧
    (s.sdBit = 0 ∧ s.sdRow = 0 ∧ s.cfg.encPlace = .receive → ∀ i, candOf t i = [memGet t.bps i]) ∧
    (¬ (s.sdBit = 0 ∧ s.sdRow = 0 ∧ s.cfg.encPlace = .receive) → t.cand = s.cand)

/-- `SD.SHIFT` (R162): with the shifter ready, one event with a byte the cell allows; otherwise a hold (R170). That a
hold is a next state is the model's choice (log 6). -/
def Obligations.ShiftEmitsOnePlaneByte : Prop :=
  ∀ s : State,
    (s.shifterReady = false → exec .sdShift s = .next s) ∧
    (s.shifterReady = true → s.sdBit < 6 → s.sdRow < rows s.cfg → s.sdCol < s.cfg.width → SetsNonempty s →
      ∃ (t : State) (v : Byte), exec .sdShift s = .next t ∧ MayRead s .bps (bpi s.cfg s.sdRow s.sdBit s.sdCol) v ∧
        t = { s with sdCol := t.sdCol, sdPhase := t.sdPhase, tick := t.tick, trace := s.trace ++ [.shift v] } ∧
        (0 < s.sdCol → t.sdCol = s.sdCol - 1 ∧ t.sdPhase = s.sdPhase) ∧
        (s.sdCol = 0 → t.sdCol = 0 ∧ t.sdPhase = .addr) ∧
        (s.cfg.encPlace = .refresh → t.tick = s.tick))

/-- `SD.ADDR`, `SD.LAT_ON`, `SD.LAT_OFF`, `SD.ENABLE`, `SD.HOLD` (R163 to R167). The address lines are the spec's
decision D16 (log 21), the two latch phases its D13 (log 19), the durations on the events its D15 (logs 20, 33; R176). -/
def Obligations.LatchAndHoldPhases : Prop :=
  ∀ s : State,
    exec .sdAddr s =
      .next { s with addrValue := s.sdRow, sdPhase := .latOn, trace := s.trace ++ [.addr s.sdRow] } ∧
    exec .sdLatOn s =
      .next { s with latLevel := .asserted, sdPhase := .latOff, trace := s.trace ++ [.latAsserted s.cfg.tLatch] } ∧
    exec .sdLatOff s =
      .next { s with latLevel := .deasserted, sdPhase := .enable, trace := s.trace ++ [.latDeasserted] } ∧
    exec .sdEnable s =
      .next { s with oeLevel := .enabled, sdPhase := .hold, trace := s.trace ++ [.oe .enabled] } ∧
    exec .sdHold s =
      .next { s with sdPhase := .blankEnd, trace := s.trace ++ [.hold (2 ^ s.sdBit * s.cfg.tUnit)] }

/-- `SD.BLANK_END` (R168): the output is disabled and the counters advance, row inner, bit outer. That a cycle ends in
`TAKE` with `REFRESH` is the spec's placement, D9 and D43 (log 16). -/
def Obligations.BlankEndAdvancesCounters : Prop :=
  ∀ s : State, ∃ t, exec .sdBlankEnd s = .next t ∧
    t = { s with
          oeLevel := .disabled, sdRow := t.sdRow, sdBit := t.sdBit, sdPhase := t.sdPhase,
          trace := s.trace ++ [.oe .disabled] } ∧
    (s.sdRow + 1 < rows s.cfg → t.sdRow = s.sdRow + 1 ∧ t.sdBit = s.sdBit ∧ t.sdPhase = .blank) ∧
    (¬ s.sdRow + 1 < rows s.cfg → s.sdBit + 1 < 6 →
      t.sdRow = 0 ∧ t.sdBit = s.sdBit + 1 ∧ t.sdPhase = .blank) ∧
    (¬ s.sdRow + 1 < rows s.cfg → ¬ s.sdBit + 1 < 6 →
      t.sdRow = 0 ∧ t.sdBit = 0 ∧ t.sdPhase = if s.cfg.encPlace = .refresh then .take else .blank)

/-- `SD.TAKE` (R169, R286): a new frame starts a pass in the refresh context; without one the next cycle starts.
`taken` is the model's field (log 30). -/
def Obligations.RefreshTakeStartsPass : Prop :=
  ∀ s : State, s.cfg.encPlace = .refresh →
    (s.hfNew = true → exec .sdTake s =
      .next { s with
              hfNew := false, taken := true, encActive := true, encR := 0, encX := 0, cand := [], sdPhase := .enc }) ∧
    (s.hfNew = false → exec .sdTake s = .next { s with taken := false, sdPhase := .blank })

/-- The event trace of one (bit, row) iteration (R172), for a shifter that stays ready and plane bytes nothing writes
meanwhile: `W + 7` turns of `RF` emit exactly these `W + 7` events (R172's own list; its count says `W + 8`, log 37). -/
def Obligations.IterationTrace : Prop :=
  ∀ s : State, s.sdPhase = .blank → s.shifterReady = true → s.sdBit < 6 → s.sdRow < rows s.cfg → 1 ≤ s.cfg.width →
    (s.cfg.encPlace = .refresh ∨ s.cand = []) →
    ∃ t, rfTurns (s.cfg.width + 7) s = .next t ∧ t.bps = s.bps ∧ t.oeLevel = .disabled ∧
      t.trace = s.trace ++ ([.oe .disabled] ++
        (List.range s.cfg.width).map (fun j =>
          .shift (currentByte s .bps (bpi s.cfg s.sdRow s.sdBit (s.cfg.width - 1 - j)))) ++
        [.addr s.sdRow, .latAsserted s.cfg.tLatch, .latDeasserted, .oe .enabled,
          .hold (2 ^ s.sdBit * s.cfg.tUnit), .oe .disabled])

/-- `RF` holds only in `SD.SHIFT` on the shifter's backpressure (R175): every other turn of `RF` moves its position. -/
def Obligations.RefreshHoldsOnlyOnShifter : Prop :=
  ∀ s t : State, rfStep s = .next t → (s.sdPhase = .shift → s.shifterReady = true) →
    (t.sdPhase, t.sdBit, t.sdRow, t.sdCol, t.encR, t.encX) ≠ (s.sdPhase, s.sdBit, s.sdRow, s.sdCol, s.encR, s.encX)

/-- The latch is pulsed with the output disabled, kept by every step of every agent from every state (R174). -/
def Obligations.LatchDarkKeptByEveryStep : Prop :=
  ∀ s t : State, LatchDark s → step s = .next t → LatchDark t

/-! ## Handoff -/

/-- `HF.PUBLISH` sets the flag (R280); `HF.TAKE` is an atomic test-and-clear whose answer `taken` holds (R281, log 30). -/
def Obligations.PublishSetsAndTakeClears : Prop :=
  ∀ s : State,
    exec .hfPublish s = .next { s with hfNew := true, trace := s.trace ++ [.publish] } ∧
    exec .hfTake s = .next { s with hfNew := false, taken := s.hfNew }

/-- Newest wins: two publishes, then two takes; the first returns the frame in `FB`, the second none (R282, R288).
What a take returns is the model's field `taken` (log 30). -/
def Obligations.NewestFrameTakenOnce : Prop :=
  ∀ s : State, ∃ a b c d, exec .hfPublish s = .next a ∧ exec .hfPublish a = .next b ∧ exec .hfTake b = .next c ∧
    exec .hfTake c = .next d ∧ c.taken = true ∧ c.fb = s.fb ∧ d.taken = false ∧ d.hfNew = false ∧
    (∀ m : Memory, exec .hfTake { b with fb := m } = .next { c with fb := m })

/-! ## The shared cell -/

/-- A read of a shared byte returns a member of its candidate set, a read of any other byte the current one (R71,
R72). Which member is a free value (log 8). -/
def Obligations.SharedReadDrawsACandidate : Prop :=
  ∀ (s : State) (i : Nat), candOf s i ≠ [] →
    (∃ m ∈ candOf s i, readValue s (sharedBuf s.cfg) i = cellValue (sharedBuf s.cfg) i m) ∧
    (∀ b, b ≠ sharedBuf s.cfg → readValue s b i = currentByte s b i)

/-- A write to the shared buffer makes its value current and adds it to the byte's set, and to no other set (R72). -/
def Obligations.SharedWriteAddsItsValue : Prop :=
  ∀ (s : State) (i : Nat) (v : Byte), i < bufLen s.cfg (sharedBuf s.cfg) →
    ∃ t, writeByte s (sharedBuf s.cfg) i v = .next t ∧ currentByte t (sharedBuf s.cfg) i = v ∧
      ∀ j m, m ∈ candOf t j ↔ m ∈ candOf s j ∨ (j = i ∧ m = some v)

/-! ## Whole machine -/

/-- Reset (R50, R341): the values the spec gives, and every candidate set the singleton of its byte. That no byte of a
buffer is listed is the model's form (log 7). -/
def Obligations.ResetValues : Prop :=
  ∀ (c : Config) (s : State), s = State.resetWith c →
    s.rxLen = 0 ∧ s.rawRemaining = 0 ∧ s.rawOffset = 0 ∧ s.rxPhase = .accept ∧ s.encActive = false ∧
    s.hfNew = false ∧ s.sdBit = 0 ∧ s.sdRow = 0 ∧ s.sdPhase = .blank ∧ rawActive s = false ∧
    (∀ i, candOf s i = [memGet (bufOf s (sharedBuf c)) i]) ∧ (∀ b i, memGet (bufOf s b) i = none)

/-- The invariant holds at reset of every accepted configuration (R34, R50, R174). The levels and positions that the
spec leaves unspecified at reset are the model's values (log 9). -/
def Obligations.InvariantHoldsAtReset : Prop :=
  ∀ c : Config, configOk c = true → Inv (State.resetWith c)

/-- "No reachable state of a well-formed configuration has a model fault" (R309): from every state with the invariant
a step answers a next state, whoever's turn it is, and the invariant holds there. -/
def Obligations.InvariantKeptAndNeverStops : Prop :=
  ∀ s : State, Inv s → ∃ t, step s = .next t ∧ Inv t

/-- No step writes any buffer outside its length, from any state (R67). -/
def Obligations.NoWriteOutsideABuffer : Prop :=
  ∀ s t : State, step s = .next t → ∀ (b : Buf) (a : Nat), bufLen s.cfg b ≤ a →
    memGet (bufOf t b) a = memGet (bufOf s b) a

/-- Bits 7:6 of every plane byte are written 0 (R93). -/
def Obligations.PlaneBytesKeepReservedBitsClear : Prop :=
  ∀ s t : State, (∀ p ∈ s.bps, p.2.toNat < 64) → step s = .next t → ∀ p ∈ t.bps, p.2.toNat < 64

/-- A turn of `RF` changes nothing the receive context owns; with `RECEIVE`, not `BPS` nor the handoff either (R49, R70). -/
def Obligations.RefreshTurnLeavesReceiveSide : Prop :=
  ∀ s t : State, rfStep s = .next t → SameReceiveSide s t ∧
    (s.cfg.encPlace = .receive →
      t.bps = s.bps ∧ t.hfNew = s.hfNew ∧ t.encActive = s.encActive ∧ t.encR = s.encR ∧ t.encX = s.encX)

/-- A turn of `RX`, a failing one included, changes nothing the refresh context owns (R301, R47); with `REFRESH`, not
`BPS` nor the encoder's position either, and it never takes (R286). -/
def Obligations.ReceiveTurnLeavesRefreshSide : Prop :=
  ∀ s t : State, rxStep s = .next t → SameRefreshSide s t ∧
    (s.cfg.encPlace = .refresh →
      t.bps = s.bps ∧ t.encActive = s.encActive ∧ t.encR = s.encR ∧ t.encX = s.encX ∧
        (s.hfNew = true → t.hfNew = true))

/-- After any failure the decoder is in its idle state and the handoff flag is unchanged (R209, R305); a step fails at
most once (R306) and never with `ACCOUNTING` (R264). -/
def Obligations.FailureLeavesDecoderIdle : Prop :=
  ∀ s t : State, Inv s → step s = .next t → ∃ es, t.trace = s.trace ++ es ∧
    (es.filter (fun e => decide (∃ k ∈ [FailKind.framing, .length, .overflow, .accounting], e = .fail k))).length ≤ 1 ∧
    .fail .accounting ∉ es ∧
    ∀ k, .fail k ∈ es → t.rxLen = 0 ∧ t.rawRemaining = 0 ∧ t.rawOffset = 0 ∧ t.hfNew = s.hfNew ∧
      t.rxPhase = .accept ∧ t.encActive = s.encActive
end

