-- ==== Sys2Proof/Laws/State.lean ====
section
/-! SUPPORT. What each named update of the state does to each field: one lemma per field per update, true by rfl, so that
no later proof unfolds a record update. -/

namespace Sys2Proof.Machine

/-! ## emit -/

@[simp] theorem emit_rxLen (e : Event) (s : State) : (emit e s).rxLen = s.rxLen := rfl
@[simp] theorem emit_rawRemaining (e : Event) (s : State) : (emit e s).rawRemaining = s.rawRemaining := rfl
@[simp] theorem emit_rawOffset (e : Event) (s : State) : (emit e s).rawOffset = s.rawOffset := rfl
@[simp] theorem emit_rxPhase (e : Event) (s : State) : (emit e s).rxPhase = s.rxPhase := rfl
@[simp] theorem emit_encActive (e : Event) (s : State) : (emit e s).encActive = s.encActive := rfl
@[simp] theorem emit_encR (e : Event) (s : State) : (emit e s).encR = s.encR := rfl
@[simp] theorem emit_encX (e : Event) (s : State) : (emit e s).encX = s.encX := rfl
@[simp] theorem emit_hfNew (e : Event) (s : State) : (emit e s).hfNew = s.hfNew := rfl
@[simp] theorem emit_sdBit (e : Event) (s : State) : (emit e s).sdBit = s.sdBit := rfl
@[simp] theorem emit_sdRow (e : Event) (s : State) : (emit e s).sdRow = s.sdRow := rfl
@[simp] theorem emit_sdPhase (e : Event) (s : State) : (emit e s).sdPhase = s.sdPhase := rfl
@[simp] theorem emit_sdCol (e : Event) (s : State) : (emit e s).sdCol = s.sdCol := rfl
@[simp] theorem emit_oeLevel (e : Event) (s : State) : (emit e s).oeLevel = s.oeLevel := rfl
@[simp] theorem emit_latLevel (e : Event) (s : State) : (emit e s).latLevel = s.latLevel := rfl
@[simp] theorem emit_addrValue (e : Event) (s : State) : (emit e s).addrValue = s.addrValue := rfl
@[simp] theorem emit_fb (e : Event) (s : State) : (emit e s).fb = s.fb := rfl
@[simp] theorem emit_bps (e : Event) (s : State) : (emit e s).bps = s.bps := rfl
@[simp] theorem emit_rxb (e : Event) (s : State) : (emit e s).rxb = s.rxb := rfl
@[simp] theorem emit_cand (e : Event) (s : State) : (emit e s).cand = s.cand := rfl
@[simp] theorem emit_cfg (e : Event) (s : State) : (emit e s).cfg = s.cfg := rfl
@[simp] theorem emit_dec (e : Event) (s : State) : (emit e s).dec = s.dec := rfl
@[simp] theorem emit_taken (e : Event) (s : State) : (emit e s).taken = s.taken := rfl
@[simp] theorem emit_link (e : Event) (s : State) : (emit e s).link = s.link := rfl
@[simp] theorem emit_shifterReady (e : Event) (s : State) : (emit e s).shifterReady = s.shifterReady := rfl
@[simp] theorem emit_sched (e : Event) (s : State) : (emit e s).sched = s.sched := rfl
@[simp] theorem emit_tick (e : Event) (s : State) : (emit e s).tick = s.tick := rfl
@[simp] theorem emit_trace (e : Event) (s : State) : (emit e s).trace = s.trace ++ [e] := rfl

/-! ## acknowledge -/

@[simp] theorem acknowledge_rxLen (d : Byte) (s : State) : (acknowledge d s).rxLen = s.rxLen := rfl
@[simp] theorem acknowledge_rawRemaining (d : Byte) (s : State) : (acknowledge d s).rawRemaining = s.rawRemaining := rfl
@[simp] theorem acknowledge_rawOffset (d : Byte) (s : State) : (acknowledge d s).rawOffset = s.rawOffset := rfl
@[simp] theorem acknowledge_rxPhase (d : Byte) (s : State) : (acknowledge d s).rxPhase = s.rxPhase := rfl
@[simp] theorem acknowledge_encActive (d : Byte) (s : State) : (acknowledge d s).encActive = s.encActive := rfl
@[simp] theorem acknowledge_encR (d : Byte) (s : State) : (acknowledge d s).encR = s.encR := rfl
@[simp] theorem acknowledge_encX (d : Byte) (s : State) : (acknowledge d s).encX = s.encX := rfl
@[simp] theorem acknowledge_hfNew (d : Byte) (s : State) : (acknowledge d s).hfNew = s.hfNew := rfl
@[simp] theorem acknowledge_sdBit (d : Byte) (s : State) : (acknowledge d s).sdBit = s.sdBit := rfl
@[simp] theorem acknowledge_sdRow (d : Byte) (s : State) : (acknowledge d s).sdRow = s.sdRow := rfl
@[simp] theorem acknowledge_sdPhase (d : Byte) (s : State) : (acknowledge d s).sdPhase = s.sdPhase := rfl
@[simp] theorem acknowledge_sdCol (d : Byte) (s : State) : (acknowledge d s).sdCol = s.sdCol := rfl
@[simp] theorem acknowledge_oeLevel (d : Byte) (s : State) : (acknowledge d s).oeLevel = s.oeLevel := rfl
@[simp] theorem acknowledge_latLevel (d : Byte) (s : State) : (acknowledge d s).latLevel = s.latLevel := rfl
@[simp] theorem acknowledge_addrValue (d : Byte) (s : State) : (acknowledge d s).addrValue = s.addrValue := rfl
@[simp] theorem acknowledge_fb (d : Byte) (s : State) : (acknowledge d s).fb = s.fb := rfl
@[simp] theorem acknowledge_bps (d : Byte) (s : State) : (acknowledge d s).bps = s.bps := rfl
@[simp] theorem acknowledge_rxb (d : Byte) (s : State) : (acknowledge d s).rxb = s.rxb := rfl
@[simp] theorem acknowledge_cand (d : Byte) (s : State) : (acknowledge d s).cand = s.cand := rfl
@[simp] theorem acknowledge_cfg (d : Byte) (s : State) : (acknowledge d s).cfg = s.cfg := rfl
@[simp] theorem acknowledge_dec (d : Byte) (s : State) : (acknowledge d s).dec = s.dec := rfl
@[simp] theorem acknowledge_taken (d : Byte) (s : State) : (acknowledge d s).taken = s.taken := rfl
@[simp] theorem acknowledge_link (d : Byte) (s : State) : (acknowledge d s).link = s.link := rfl
@[simp] theorem acknowledge_shifterReady (d : Byte) (s : State) : (acknowledge d s).shifterReady = s.shifterReady := rfl
@[simp] theorem acknowledge_sched (d : Byte) (s : State) : (acknowledge d s).sched = s.sched := rfl
@[simp] theorem acknowledge_tick (d : Byte) (s : State) : (acknowledge d s).tick = s.tick := rfl
@[simp] theorem acknowledge_trace (d : Byte) (s : State) : (acknowledge d s).trace = s.trace ++ [.linkOut d] := rfl

/-! ## consumeLink -/

@[simp] theorem consumeLink_rxLen (d : Byte) (rest : List Byte) (s : State) : (consumeLink d rest s).rxLen = s.rxLen := rfl
@[simp] theorem consumeLink_rawRemaining (d : Byte) (rest : List Byte) (s : State) : (consumeLink d rest s).rawRemaining = s.rawRemaining := rfl
@[simp] theorem consumeLink_rawOffset (d : Byte) (rest : List Byte) (s : State) : (consumeLink d rest s).rawOffset = s.rawOffset := rfl
@[simp] theorem consumeLink_rxPhase (d : Byte) (rest : List Byte) (s : State) : (consumeLink d rest s).rxPhase = s.rxPhase := rfl
@[simp] theorem consumeLink_encActive (d : Byte) (rest : List Byte) (s : State) : (consumeLink d rest s).encActive = s.encActive := rfl
@[simp] theorem consumeLink_encR (d : Byte) (rest : List Byte) (s : State) : (consumeLink d rest s).encR = s.encR := rfl
@[simp] theorem consumeLink_encX (d : Byte) (rest : List Byte) (s : State) : (consumeLink d rest s).encX = s.encX := rfl
@[simp] theorem consumeLink_hfNew (d : Byte) (rest : List Byte) (s : State) : (consumeLink d rest s).hfNew = s.hfNew := rfl
@[simp] theorem consumeLink_sdBit (d : Byte) (rest : List Byte) (s : State) : (consumeLink d rest s).sdBit = s.sdBit := rfl
@[simp] theorem consumeLink_sdRow (d : Byte) (rest : List Byte) (s : State) : (consumeLink d rest s).sdRow = s.sdRow := rfl
@[simp] theorem consumeLink_sdPhase (d : Byte) (rest : List Byte) (s : State) : (consumeLink d rest s).sdPhase = s.sdPhase := rfl
@[simp] theorem consumeLink_sdCol (d : Byte) (rest : List Byte) (s : State) : (consumeLink d rest s).sdCol = s.sdCol := rfl
@[simp] theorem consumeLink_oeLevel (d : Byte) (rest : List Byte) (s : State) : (consumeLink d rest s).oeLevel = s.oeLevel := rfl
@[simp] theorem consumeLink_latLevel (d : Byte) (rest : List Byte) (s : State) : (consumeLink d rest s).latLevel = s.latLevel := rfl
@[simp] theorem consumeLink_addrValue (d : Byte) (rest : List Byte) (s : State) : (consumeLink d rest s).addrValue = s.addrValue := rfl
@[simp] theorem consumeLink_fb (d : Byte) (rest : List Byte) (s : State) : (consumeLink d rest s).fb = s.fb := rfl
@[simp] theorem consumeLink_bps (d : Byte) (rest : List Byte) (s : State) : (consumeLink d rest s).bps = s.bps := rfl
@[simp] theorem consumeLink_rxb (d : Byte) (rest : List Byte) (s : State) : (consumeLink d rest s).rxb = s.rxb := rfl
@[simp] theorem consumeLink_cand (d : Byte) (rest : List Byte) (s : State) : (consumeLink d rest s).cand = s.cand := rfl
@[simp] theorem consumeLink_cfg (d : Byte) (rest : List Byte) (s : State) : (consumeLink d rest s).cfg = s.cfg := rfl
@[simp] theorem consumeLink_dec (d : Byte) (rest : List Byte) (s : State) : (consumeLink d rest s).dec = s.dec := rfl
@[simp] theorem consumeLink_taken (d : Byte) (rest : List Byte) (s : State) : (consumeLink d rest s).taken = s.taken := rfl
@[simp] theorem consumeLink_link (d : Byte) (rest : List Byte) (s : State) : (consumeLink d rest s).link = rest := rfl
@[simp] theorem consumeLink_shifterReady (d : Byte) (rest : List Byte) (s : State) : (consumeLink d rest s).shifterReady = s.shifterReady := rfl
@[simp] theorem consumeLink_sched (d : Byte) (rest : List Byte) (s : State) : (consumeLink d rest s).sched = s.sched := rfl
@[simp] theorem consumeLink_tick (d : Byte) (rest : List Byte) (s : State) : (consumeLink d rest s).tick = s.tick := rfl
@[simp] theorem consumeLink_trace (d : Byte) (rest : List Byte) (s : State) : (consumeLink d rest s).trace = s.trace ++ [.linkIn d] := rfl

/-! ## raiseFail -/

@[simp] theorem raiseFail_rxLen (k : FailKind) (s : State) : (raiseFail k s).rxLen = s.rxLen := rfl
@[simp] theorem raiseFail_rawRemaining (k : FailKind) (s : State) : (raiseFail k s).rawRemaining = s.rawRemaining := rfl
@[simp] theorem raiseFail_rawOffset (k : FailKind) (s : State) : (raiseFail k s).rawOffset = s.rawOffset := rfl
@[simp] theorem raiseFail_rxPhase (k : FailKind) (s : State) : (raiseFail k s).rxPhase = s.rxPhase := rfl
@[simp] theorem raiseFail_encActive (k : FailKind) (s : State) : (raiseFail k s).encActive = s.encActive := rfl
@[simp] theorem raiseFail_encR (k : FailKind) (s : State) : (raiseFail k s).encR = s.encR := rfl
@[simp] theorem raiseFail_encX (k : FailKind) (s : State) : (raiseFail k s).encX = s.encX := rfl
@[simp] theorem raiseFail_hfNew (k : FailKind) (s : State) : (raiseFail k s).hfNew = s.hfNew := rfl
@[simp] theorem raiseFail_sdBit (k : FailKind) (s : State) : (raiseFail k s).sdBit = s.sdBit := rfl
@[simp] theorem raiseFail_sdRow (k : FailKind) (s : State) : (raiseFail k s).sdRow = s.sdRow := rfl
@[simp] theorem raiseFail_sdPhase (k : FailKind) (s : State) : (raiseFail k s).sdPhase = s.sdPhase := rfl
@[simp] theorem raiseFail_sdCol (k : FailKind) (s : State) : (raiseFail k s).sdCol = s.sdCol := rfl
@[simp] theorem raiseFail_oeLevel (k : FailKind) (s : State) : (raiseFail k s).oeLevel = s.oeLevel := rfl
@[simp] theorem raiseFail_latLevel (k : FailKind) (s : State) : (raiseFail k s).latLevel = s.latLevel := rfl
@[simp] theorem raiseFail_addrValue (k : FailKind) (s : State) : (raiseFail k s).addrValue = s.addrValue := rfl
@[simp] theorem raiseFail_fb (k : FailKind) (s : State) : (raiseFail k s).fb = s.fb := rfl
@[simp] theorem raiseFail_bps (k : FailKind) (s : State) : (raiseFail k s).bps = s.bps := rfl
@[simp] theorem raiseFail_rxb (k : FailKind) (s : State) : (raiseFail k s).rxb = s.rxb := rfl
@[simp] theorem raiseFail_cand (k : FailKind) (s : State) : (raiseFail k s).cand = s.cand := rfl
@[simp] theorem raiseFail_cfg (k : FailKind) (s : State) : (raiseFail k s).cfg = s.cfg := rfl
@[simp] theorem raiseFail_dec (k : FailKind) (s : State) : (raiseFail k s).dec = { s.dec with status := .failed k } := rfl
@[simp] theorem raiseFail_taken (k : FailKind) (s : State) : (raiseFail k s).taken = s.taken := rfl
@[simp] theorem raiseFail_link (k : FailKind) (s : State) : (raiseFail k s).link = s.link := rfl
@[simp] theorem raiseFail_shifterReady (k : FailKind) (s : State) : (raiseFail k s).shifterReady = s.shifterReady := rfl
@[simp] theorem raiseFail_sched (k : FailKind) (s : State) : (raiseFail k s).sched = s.sched := rfl
@[simp] theorem raiseFail_tick (k : FailKind) (s : State) : (raiseFail k s).tick = s.tick := rfl
@[simp] theorem raiseFail_trace (k : FailKind) (s : State) : (raiseFail k s).trace = s.trace ++ [.fail k] := rfl

/-! ## resetAccum -/

@[simp] theorem resetAccum_rxLen (s : State) : (resetAccum s).rxLen = 0 := rfl
@[simp] theorem resetAccum_rawRemaining (s : State) : (resetAccum s).rawRemaining = s.rawRemaining := rfl
@[simp] theorem resetAccum_rawOffset (s : State) : (resetAccum s).rawOffset = s.rawOffset := rfl
@[simp] theorem resetAccum_rxPhase (s : State) : (resetAccum s).rxPhase = s.rxPhase := rfl
@[simp] theorem resetAccum_encActive (s : State) : (resetAccum s).encActive = s.encActive := rfl
@[simp] theorem resetAccum_encR (s : State) : (resetAccum s).encR = s.encR := rfl
@[simp] theorem resetAccum_encX (s : State) : (resetAccum s).encX = s.encX := rfl
@[simp] theorem resetAccum_hfNew (s : State) : (resetAccum s).hfNew = s.hfNew := rfl
@[simp] theorem resetAccum_sdBit (s : State) : (resetAccum s).sdBit = s.sdBit := rfl
@[simp] theorem resetAccum_sdRow (s : State) : (resetAccum s).sdRow = s.sdRow := rfl
@[simp] theorem resetAccum_sdPhase (s : State) : (resetAccum s).sdPhase = s.sdPhase := rfl
@[simp] theorem resetAccum_sdCol (s : State) : (resetAccum s).sdCol = s.sdCol := rfl
@[simp] theorem resetAccum_oeLevel (s : State) : (resetAccum s).oeLevel = s.oeLevel := rfl
@[simp] theorem resetAccum_latLevel (s : State) : (resetAccum s).latLevel = s.latLevel := rfl
@[simp] theorem resetAccum_addrValue (s : State) : (resetAccum s).addrValue = s.addrValue := rfl
@[simp] theorem resetAccum_fb (s : State) : (resetAccum s).fb = s.fb := rfl
@[simp] theorem resetAccum_bps (s : State) : (resetAccum s).bps = s.bps := rfl
@[simp] theorem resetAccum_rxb (s : State) : (resetAccum s).rxb = s.rxb := rfl
@[simp] theorem resetAccum_cand (s : State) : (resetAccum s).cand = s.cand := rfl
@[simp] theorem resetAccum_cfg (s : State) : (resetAccum s).cfg = s.cfg := rfl
@[simp] theorem resetAccum_dec (s : State) : (resetAccum s).dec = s.dec := rfl
@[simp] theorem resetAccum_taken (s : State) : (resetAccum s).taken = s.taken := rfl
@[simp] theorem resetAccum_link (s : State) : (resetAccum s).link = s.link := rfl
@[simp] theorem resetAccum_shifterReady (s : State) : (resetAccum s).shifterReady = s.shifterReady := rfl
@[simp] theorem resetAccum_sched (s : State) : (resetAccum s).sched = s.sched := rfl
@[simp] theorem resetAccum_tick (s : State) : (resetAccum s).tick = s.tick := rfl
@[simp] theorem resetAccum_trace (s : State) : (resetAccum s).trace = s.trace := rfl

/-! ## accountingReset -/

@[simp] theorem accountingReset_rxLen (s : State) : (accountingReset s).rxLen = 0 := rfl
@[simp] theorem accountingReset_rawRemaining (s : State) : (accountingReset s).rawRemaining = 0 := rfl
@[simp] theorem accountingReset_rawOffset (s : State) : (accountingReset s).rawOffset = 0 := rfl
@[simp] theorem accountingReset_rxPhase (s : State) : (accountingReset s).rxPhase = s.rxPhase := rfl
@[simp] theorem accountingReset_encActive (s : State) : (accountingReset s).encActive = s.encActive := rfl
@[simp] theorem accountingReset_encR (s : State) : (accountingReset s).encR = s.encR := rfl
@[simp] theorem accountingReset_encX (s : State) : (accountingReset s).encX = s.encX := rfl
@[simp] theorem accountingReset_hfNew (s : State) : (accountingReset s).hfNew = s.hfNew := rfl
@[simp] theorem accountingReset_sdBit (s : State) : (accountingReset s).sdBit = s.sdBit := rfl
@[simp] theorem accountingReset_sdRow (s : State) : (accountingReset s).sdRow = s.sdRow := rfl
@[simp] theorem accountingReset_sdPhase (s : State) : (accountingReset s).sdPhase = s.sdPhase := rfl
@[simp] theorem accountingReset_sdCol (s : State) : (accountingReset s).sdCol = s.sdCol := rfl
@[simp] theorem accountingReset_oeLevel (s : State) : (accountingReset s).oeLevel = s.oeLevel := rfl
@[simp] theorem accountingReset_latLevel (s : State) : (accountingReset s).latLevel = s.latLevel := rfl
@[simp] theorem accountingReset_addrValue (s : State) : (accountingReset s).addrValue = s.addrValue := rfl
@[simp] theorem accountingReset_fb (s : State) : (accountingReset s).fb = s.fb := rfl
@[simp] theorem accountingReset_bps (s : State) : (accountingReset s).bps = s.bps := rfl
@[simp] theorem accountingReset_rxb (s : State) : (accountingReset s).rxb = s.rxb := rfl
@[simp] theorem accountingReset_cand (s : State) : (accountingReset s).cand = s.cand := rfl
@[simp] theorem accountingReset_cfg (s : State) : (accountingReset s).cfg = s.cfg := rfl
@[simp] theorem accountingReset_dec (s : State) : (accountingReset s).dec = s.dec := rfl
@[simp] theorem accountingReset_taken (s : State) : (accountingReset s).taken = s.taken := rfl
@[simp] theorem accountingReset_link (s : State) : (accountingReset s).link = s.link := rfl
@[simp] theorem accountingReset_shifterReady (s : State) : (accountingReset s).shifterReady = s.shifterReady := rfl
@[simp] theorem accountingReset_sched (s : State) : (accountingReset s).sched = s.sched := rfl
@[simp] theorem accountingReset_tick (s : State) : (accountingReset s).tick = s.tick := rfl
@[simp] theorem accountingReset_trace (s : State) : (accountingReset s).trace = (s.trace ++ [.fail .accounting]) ++ [.linkOut ackErrByte] := rfl

/-! ## startDecode -/

@[simp] theorem startDecode_rxLen (s : State) : (startDecode s).rxLen = s.rxLen := rfl
@[simp] theorem startDecode_rawRemaining (s : State) : (startDecode s).rawRemaining = s.rawRemaining := rfl
@[simp] theorem startDecode_rawOffset (s : State) : (startDecode s).rawOffset = s.rawOffset := rfl
@[simp] theorem startDecode_rxPhase (s : State) : (startDecode s).rxPhase = s.rxPhase := rfl
@[simp] theorem startDecode_encActive (s : State) : (startDecode s).encActive = s.encActive := rfl
@[simp] theorem startDecode_encR (s : State) : (startDecode s).encR = s.encR := rfl
@[simp] theorem startDecode_encX (s : State) : (startDecode s).encX = s.encX := rfl
@[simp] theorem startDecode_hfNew (s : State) : (startDecode s).hfNew = s.hfNew := rfl
@[simp] theorem startDecode_sdBit (s : State) : (startDecode s).sdBit = s.sdBit := rfl
@[simp] theorem startDecode_sdRow (s : State) : (startDecode s).sdRow = s.sdRow := rfl
@[simp] theorem startDecode_sdPhase (s : State) : (startDecode s).sdPhase = s.sdPhase := rfl
@[simp] theorem startDecode_sdCol (s : State) : (startDecode s).sdCol = s.sdCol := rfl
@[simp] theorem startDecode_oeLevel (s : State) : (startDecode s).oeLevel = s.oeLevel := rfl
@[simp] theorem startDecode_latLevel (s : State) : (startDecode s).latLevel = s.latLevel := rfl
@[simp] theorem startDecode_addrValue (s : State) : (startDecode s).addrValue = s.addrValue := rfl
@[simp] theorem startDecode_fb (s : State) : (startDecode s).fb = s.fb := rfl
@[simp] theorem startDecode_bps (s : State) : (startDecode s).bps = s.bps := rfl
@[simp] theorem startDecode_rxb (s : State) : (startDecode s).rxb = s.rxb := rfl
@[simp] theorem startDecode_cand (s : State) : (startDecode s).cand = s.cand := rfl
@[simp] theorem startDecode_cfg (s : State) : (startDecode s).cfg = s.cfg := rfl
@[simp] theorem startDecode_dec (s : State) : (startDecode s).dec = { n := s.rxLen, i := 0, o := 0, acc := 0, k := 0, status := .running } := rfl
@[simp] theorem startDecode_taken (s : State) : (startDecode s).taken = s.taken := rfl
@[simp] theorem startDecode_link (s : State) : (startDecode s).link = s.link := rfl
@[simp] theorem startDecode_shifterReady (s : State) : (startDecode s).shifterReady = s.shifterReady := rfl
@[simp] theorem startDecode_sched (s : State) : (startDecode s).sched = s.sched := rfl
@[simp] theorem startDecode_tick (s : State) : (startDecode s).tick = s.tick := rfl
@[simp] theorem startDecode_trace (s : State) : (startDecode s).trace = s.trace := rfl

/-! ## endDecode -/

@[simp] theorem endDecode_rxLen (s : State) : (endDecode s).rxLen = s.rxLen := rfl
@[simp] theorem endDecode_rawRemaining (s : State) : (endDecode s).rawRemaining = s.rawRemaining := rfl
@[simp] theorem endDecode_rawOffset (s : State) : (endDecode s).rawOffset = s.rawOffset := rfl
@[simp] theorem endDecode_rxPhase (s : State) : (endDecode s).rxPhase = s.rxPhase := rfl
@[simp] theorem endDecode_encActive (s : State) : (endDecode s).encActive = s.encActive := rfl
@[simp] theorem endDecode_encR (s : State) : (endDecode s).encR = s.encR := rfl
@[simp] theorem endDecode_encX (s : State) : (endDecode s).encX = s.encX := rfl
@[simp] theorem endDecode_hfNew (s : State) : (endDecode s).hfNew = s.hfNew := rfl
@[simp] theorem endDecode_sdBit (s : State) : (endDecode s).sdBit = s.sdBit := rfl
@[simp] theorem endDecode_sdRow (s : State) : (endDecode s).sdRow = s.sdRow := rfl
@[simp] theorem endDecode_sdPhase (s : State) : (endDecode s).sdPhase = s.sdPhase := rfl
@[simp] theorem endDecode_sdCol (s : State) : (endDecode s).sdCol = s.sdCol := rfl
@[simp] theorem endDecode_oeLevel (s : State) : (endDecode s).oeLevel = s.oeLevel := rfl
@[simp] theorem endDecode_latLevel (s : State) : (endDecode s).latLevel = s.latLevel := rfl
@[simp] theorem endDecode_addrValue (s : State) : (endDecode s).addrValue = s.addrValue := rfl
@[simp] theorem endDecode_fb (s : State) : (endDecode s).fb = s.fb := rfl
@[simp] theorem endDecode_bps (s : State) : (endDecode s).bps = s.bps := rfl
@[simp] theorem endDecode_rxb (s : State) : (endDecode s).rxb = s.rxb := rfl
@[simp] theorem endDecode_cand (s : State) : (endDecode s).cand = s.cand := rfl
@[simp] theorem endDecode_cfg (s : State) : (endDecode s).cfg = s.cfg := rfl
@[simp] theorem endDecode_dec (s : State) : (endDecode s).dec = DecLocals.idle := rfl
@[simp] theorem endDecode_taken (s : State) : (endDecode s).taken = s.taken := rfl
@[simp] theorem endDecode_link (s : State) : (endDecode s).link = s.link := rfl
@[simp] theorem endDecode_shifterReady (s : State) : (endDecode s).shifterReady = s.shifterReady := rfl
@[simp] theorem endDecode_sched (s : State) : (endDecode s).sched = s.sched := rfl
@[simp] theorem endDecode_tick (s : State) : (endDecode s).tick = s.tick := rfl
@[simp] theorem endDecode_trace (s : State) : (endDecode s).trace = s.trace := rfl

/-! ## advanceIn -/

@[simp] theorem advanceIn_rxLen (s : State) : (advanceIn s).rxLen = s.rxLen := rfl
@[simp] theorem advanceIn_rawRemaining (s : State) : (advanceIn s).rawRemaining = s.rawRemaining := rfl
@[simp] theorem advanceIn_rawOffset (s : State) : (advanceIn s).rawOffset = s.rawOffset := rfl
@[simp] theorem advanceIn_rxPhase (s : State) : (advanceIn s).rxPhase = s.rxPhase := rfl
@[simp] theorem advanceIn_encActive (s : State) : (advanceIn s).encActive = s.encActive := rfl
@[simp] theorem advanceIn_encR (s : State) : (advanceIn s).encR = s.encR := rfl
@[simp] theorem advanceIn_encX (s : State) : (advanceIn s).encX = s.encX := rfl
@[simp] theorem advanceIn_hfNew (s : State) : (advanceIn s).hfNew = s.hfNew := rfl
@[simp] theorem advanceIn_sdBit (s : State) : (advanceIn s).sdBit = s.sdBit := rfl
@[simp] theorem advanceIn_sdRow (s : State) : (advanceIn s).sdRow = s.sdRow := rfl
@[simp] theorem advanceIn_sdPhase (s : State) : (advanceIn s).sdPhase = s.sdPhase := rfl
@[simp] theorem advanceIn_sdCol (s : State) : (advanceIn s).sdCol = s.sdCol := rfl
@[simp] theorem advanceIn_oeLevel (s : State) : (advanceIn s).oeLevel = s.oeLevel := rfl
@[simp] theorem advanceIn_latLevel (s : State) : (advanceIn s).latLevel = s.latLevel := rfl
@[simp] theorem advanceIn_addrValue (s : State) : (advanceIn s).addrValue = s.addrValue := rfl
@[simp] theorem advanceIn_fb (s : State) : (advanceIn s).fb = s.fb := rfl
@[simp] theorem advanceIn_bps (s : State) : (advanceIn s).bps = s.bps := rfl
@[simp] theorem advanceIn_rxb (s : State) : (advanceIn s).rxb = s.rxb := rfl
@[simp] theorem advanceIn_cand (s : State) : (advanceIn s).cand = s.cand := rfl
@[simp] theorem advanceIn_cfg (s : State) : (advanceIn s).cfg = s.cfg := rfl
@[simp] theorem advanceIn_dec (s : State) : (advanceIn s).dec = { s.dec with i := s.dec.i + 1 } := rfl
@[simp] theorem advanceIn_taken (s : State) : (advanceIn s).taken = s.taken := rfl
@[simp] theorem advanceIn_link (s : State) : (advanceIn s).link = s.link := rfl
@[simp] theorem advanceIn_shifterReady (s : State) : (advanceIn s).shifterReady = s.shifterReady := rfl
@[simp] theorem advanceIn_sched (s : State) : (advanceIn s).sched = s.sched := rfl
@[simp] theorem advanceIn_tick (s : State) : (advanceIn s).tick = s.tick := rfl
@[simp] theorem advanceIn_trace (s : State) : (advanceIn s).trace = s.trace := rfl

/-! ## publish -/

@[simp] theorem publish_rxLen (s : State) : (publish s).rxLen = s.rxLen := rfl
@[simp] theorem publish_rawRemaining (s : State) : (publish s).rawRemaining = s.rawRemaining := rfl
@[simp] theorem publish_rawOffset (s : State) : (publish s).rawOffset = s.rawOffset := rfl
@[simp] theorem publish_rxPhase (s : State) : (publish s).rxPhase = s.rxPhase := rfl
@[simp] theorem publish_encActive (s : State) : (publish s).encActive = s.encActive := rfl
@[simp] theorem publish_encR (s : State) : (publish s).encR = s.encR := rfl
@[simp] theorem publish_encX (s : State) : (publish s).encX = s.encX := rfl
@[simp] theorem publish_hfNew (s : State) : (publish s).hfNew = true := rfl
@[simp] theorem publish_sdBit (s : State) : (publish s).sdBit = s.sdBit := rfl
@[simp] theorem publish_sdRow (s : State) : (publish s).sdRow = s.sdRow := rfl
@[simp] theorem publish_sdPhase (s : State) : (publish s).sdPhase = s.sdPhase := rfl
@[simp] theorem publish_sdCol (s : State) : (publish s).sdCol = s.sdCol := rfl
@[simp] theorem publish_oeLevel (s : State) : (publish s).oeLevel = s.oeLevel := rfl
@[simp] theorem publish_latLevel (s : State) : (publish s).latLevel = s.latLevel := rfl
@[simp] theorem publish_addrValue (s : State) : (publish s).addrValue = s.addrValue := rfl
@[simp] theorem publish_fb (s : State) : (publish s).fb = s.fb := rfl
@[simp] theorem publish_bps (s : State) : (publish s).bps = s.bps := rfl
@[simp] theorem publish_rxb (s : State) : (publish s).rxb = s.rxb := rfl
@[simp] theorem publish_cand (s : State) : (publish s).cand = s.cand := rfl
@[simp] theorem publish_cfg (s : State) : (publish s).cfg = s.cfg := rfl
@[simp] theorem publish_dec (s : State) : (publish s).dec = s.dec := rfl
@[simp] theorem publish_taken (s : State) : (publish s).taken = s.taken := rfl
@[simp] theorem publish_link (s : State) : (publish s).link = s.link := rfl
@[simp] theorem publish_shifterReady (s : State) : (publish s).shifterReady = s.shifterReady := rfl
@[simp] theorem publish_sched (s : State) : (publish s).sched = s.sched := rfl
@[simp] theorem publish_tick (s : State) : (publish s).tick = s.tick := rfl
@[simp] theorem publish_trace (s : State) : (publish s).trace = s.trace ++ [.publish] := rfl

/-! ## takeIfNew -/

@[simp] theorem takeIfNew_rxLen (s : State) : (takeIfNew s).rxLen = s.rxLen := rfl
@[simp] theorem takeIfNew_rawRemaining (s : State) : (takeIfNew s).rawRemaining = s.rawRemaining := rfl
@[simp] theorem takeIfNew_rawOffset (s : State) : (takeIfNew s).rawOffset = s.rawOffset := rfl
@[simp] theorem takeIfNew_rxPhase (s : State) : (takeIfNew s).rxPhase = s.rxPhase := rfl
@[simp] theorem takeIfNew_encActive (s : State) : (takeIfNew s).encActive = s.encActive := rfl
@[simp] theorem takeIfNew_encR (s : State) : (takeIfNew s).encR = s.encR := rfl
@[simp] theorem takeIfNew_encX (s : State) : (takeIfNew s).encX = s.encX := rfl
@[simp] theorem takeIfNew_hfNew (s : State) : (takeIfNew s).hfNew = false := rfl
@[simp] theorem takeIfNew_sdBit (s : State) : (takeIfNew s).sdBit = s.sdBit := rfl
@[simp] theorem takeIfNew_sdRow (s : State) : (takeIfNew s).sdRow = s.sdRow := rfl
@[simp] theorem takeIfNew_sdPhase (s : State) : (takeIfNew s).sdPhase = s.sdPhase := rfl
@[simp] theorem takeIfNew_sdCol (s : State) : (takeIfNew s).sdCol = s.sdCol := rfl
@[simp] theorem takeIfNew_oeLevel (s : State) : (takeIfNew s).oeLevel = s.oeLevel := rfl
@[simp] theorem takeIfNew_latLevel (s : State) : (takeIfNew s).latLevel = s.latLevel := rfl
@[simp] theorem takeIfNew_addrValue (s : State) : (takeIfNew s).addrValue = s.addrValue := rfl
@[simp] theorem takeIfNew_fb (s : State) : (takeIfNew s).fb = s.fb := rfl
@[simp] theorem takeIfNew_bps (s : State) : (takeIfNew s).bps = s.bps := rfl
@[simp] theorem takeIfNew_rxb (s : State) : (takeIfNew s).rxb = s.rxb := rfl
@[simp] theorem takeIfNew_cand (s : State) : (takeIfNew s).cand = s.cand := rfl
@[simp] theorem takeIfNew_cfg (s : State) : (takeIfNew s).cfg = s.cfg := rfl
@[simp] theorem takeIfNew_dec (s : State) : (takeIfNew s).dec = s.dec := rfl
@[simp] theorem takeIfNew_taken (s : State) : (takeIfNew s).taken = s.hfNew := rfl
@[simp] theorem takeIfNew_link (s : State) : (takeIfNew s).link = s.link := rfl
@[simp] theorem takeIfNew_shifterReady (s : State) : (takeIfNew s).shifterReady = s.shifterReady := rfl
@[simp] theorem takeIfNew_sched (s : State) : (takeIfNew s).sched = s.sched := rfl
@[simp] theorem takeIfNew_tick (s : State) : (takeIfNew s).tick = s.tick := rfl
@[simp] theorem takeIfNew_trace (s : State) : (takeIfNew s).trace = s.trace := rfl

/-! ## startReaderPass -/

@[simp] theorem startReaderPass_rxLen (s : State) : (startReaderPass s).rxLen = s.rxLen := rfl
@[simp] theorem startReaderPass_rawRemaining (s : State) : (startReaderPass s).rawRemaining = s.rawRemaining := rfl
@[simp] theorem startReaderPass_rawOffset (s : State) : (startReaderPass s).rawOffset = s.rawOffset := rfl
@[simp] theorem startReaderPass_rxPhase (s : State) : (startReaderPass s).rxPhase = s.rxPhase := rfl
@[simp] theorem startReaderPass_encActive (s : State) : (startReaderPass s).encActive = s.encActive := rfl
@[simp] theorem startReaderPass_encR (s : State) : (startReaderPass s).encR = s.encR := rfl
@[simp] theorem startReaderPass_encX (s : State) : (startReaderPass s).encX = s.encX := rfl
@[simp] theorem startReaderPass_hfNew (s : State) : (startReaderPass s).hfNew = s.hfNew := rfl
@[simp] theorem startReaderPass_sdBit (s : State) : (startReaderPass s).sdBit = s.sdBit := rfl
@[simp] theorem startReaderPass_sdRow (s : State) : (startReaderPass s).sdRow = s.sdRow := rfl
@[simp] theorem startReaderPass_sdPhase (s : State) : (startReaderPass s).sdPhase = s.sdPhase := rfl
@[simp] theorem startReaderPass_sdCol (s : State) : (startReaderPass s).sdCol = s.sdCol := rfl
@[simp] theorem startReaderPass_oeLevel (s : State) : (startReaderPass s).oeLevel = s.oeLevel := rfl
@[simp] theorem startReaderPass_latLevel (s : State) : (startReaderPass s).latLevel = s.latLevel := rfl
@[simp] theorem startReaderPass_addrValue (s : State) : (startReaderPass s).addrValue = s.addrValue := rfl
@[simp] theorem startReaderPass_fb (s : State) : (startReaderPass s).fb = s.fb := rfl
@[simp] theorem startReaderPass_bps (s : State) : (startReaderPass s).bps = s.bps := rfl
@[simp] theorem startReaderPass_rxb (s : State) : (startReaderPass s).rxb = s.rxb := rfl
@[simp] theorem startReaderPass_cand (s : State) : (startReaderPass s).cand = [] := rfl
@[simp] theorem startReaderPass_cfg (s : State) : (startReaderPass s).cfg = s.cfg := rfl
@[simp] theorem startReaderPass_dec (s : State) : (startReaderPass s).dec = s.dec := rfl
@[simp] theorem startReaderPass_taken (s : State) : (startReaderPass s).taken = s.taken := rfl
@[simp] theorem startReaderPass_link (s : State) : (startReaderPass s).link = s.link := rfl
@[simp] theorem startReaderPass_shifterReady (s : State) : (startReaderPass s).shifterReady = s.shifterReady := rfl
@[simp] theorem startReaderPass_sched (s : State) : (startReaderPass s).sched = s.sched := rfl
@[simp] theorem startReaderPass_tick (s : State) : (startReaderPass s).tick = s.tick := rfl
@[simp] theorem startReaderPass_trace (s : State) : (startReaderPass s).trace = s.trace := rfl

/-! ## rawAdvance -/

@[simp] theorem rawAdvance_rxLen (s : State) : (rawAdvance s).rxLen = s.rxLen := rfl
@[simp] theorem rawAdvance_rawRemaining (s : State) : (rawAdvance s).rawRemaining = s.rawRemaining - 1 := rfl
@[simp] theorem rawAdvance_rawOffset (s : State) : (rawAdvance s).rawOffset = s.rawOffset + 1 := rfl
@[simp] theorem rawAdvance_rxPhase (s : State) : (rawAdvance s).rxPhase = s.rxPhase := rfl
@[simp] theorem rawAdvance_encActive (s : State) : (rawAdvance s).encActive = s.encActive := rfl
@[simp] theorem rawAdvance_encR (s : State) : (rawAdvance s).encR = s.encR := rfl
@[simp] theorem rawAdvance_encX (s : State) : (rawAdvance s).encX = s.encX := rfl
@[simp] theorem rawAdvance_hfNew (s : State) : (rawAdvance s).hfNew = s.hfNew := rfl
@[simp] theorem rawAdvance_sdBit (s : State) : (rawAdvance s).sdBit = s.sdBit := rfl
@[simp] theorem rawAdvance_sdRow (s : State) : (rawAdvance s).sdRow = s.sdRow := rfl
@[simp] theorem rawAdvance_sdPhase (s : State) : (rawAdvance s).sdPhase = s.sdPhase := rfl
@[simp] theorem rawAdvance_sdCol (s : State) : (rawAdvance s).sdCol = s.sdCol := rfl
@[simp] theorem rawAdvance_oeLevel (s : State) : (rawAdvance s).oeLevel = s.oeLevel := rfl
@[simp] theorem rawAdvance_latLevel (s : State) : (rawAdvance s).latLevel = s.latLevel := rfl
@[simp] theorem rawAdvance_addrValue (s : State) : (rawAdvance s).addrValue = s.addrValue := rfl
@[simp] theorem rawAdvance_fb (s : State) : (rawAdvance s).fb = s.fb := rfl
@[simp] theorem rawAdvance_bps (s : State) : (rawAdvance s).bps = s.bps := rfl
@[simp] theorem rawAdvance_rxb (s : State) : (rawAdvance s).rxb = s.rxb := rfl
@[simp] theorem rawAdvance_cand (s : State) : (rawAdvance s).cand = s.cand := rfl
@[simp] theorem rawAdvance_cfg (s : State) : (rawAdvance s).cfg = s.cfg := rfl
@[simp] theorem rawAdvance_dec (s : State) : (rawAdvance s).dec = s.dec := rfl
@[simp] theorem rawAdvance_taken (s : State) : (rawAdvance s).taken = s.taken := rfl
@[simp] theorem rawAdvance_link (s : State) : (rawAdvance s).link = s.link := rfl
@[simp] theorem rawAdvance_shifterReady (s : State) : (rawAdvance s).shifterReady = s.shifterReady := rfl
@[simp] theorem rawAdvance_sched (s : State) : (rawAdvance s).sched = s.sched := rfl
@[simp] theorem rawAdvance_tick (s : State) : (rawAdvance s).tick = s.tick := rfl
@[simp] theorem rawAdvance_trace (s : State) : (rawAdvance s).trace = s.trace := rfl

/-! ## pushSextet -/

@[simp] theorem pushSextet_rxLen (v : BitVec 6) (s : State) : (pushSextet v s).rxLen = s.rxLen := rfl
@[simp] theorem pushSextet_rawRemaining (v : BitVec 6) (s : State) : (pushSextet v s).rawRemaining = s.rawRemaining := rfl
@[simp] theorem pushSextet_rawOffset (v : BitVec 6) (s : State) : (pushSextet v s).rawOffset = s.rawOffset := rfl
@[simp] theorem pushSextet_rxPhase (v : BitVec 6) (s : State) : (pushSextet v s).rxPhase = s.rxPhase := rfl
@[simp] theorem pushSextet_encActive (v : BitVec 6) (s : State) : (pushSextet v s).encActive = s.encActive := rfl
@[simp] theorem pushSextet_encR (v : BitVec 6) (s : State) : (pushSextet v s).encR = s.encR := rfl
@[simp] theorem pushSextet_encX (v : BitVec 6) (s : State) : (pushSextet v s).encX = s.encX := rfl
@[simp] theorem pushSextet_hfNew (v : BitVec 6) (s : State) : (pushSextet v s).hfNew = s.hfNew := rfl
@[simp] theorem pushSextet_sdBit (v : BitVec 6) (s : State) : (pushSextet v s).sdBit = s.sdBit := rfl
@[simp] theorem pushSextet_sdRow (v : BitVec 6) (s : State) : (pushSextet v s).sdRow = s.sdRow := rfl
@[simp] theorem pushSextet_sdPhase (v : BitVec 6) (s : State) : (pushSextet v s).sdPhase = s.sdPhase := rfl
@[simp] theorem pushSextet_sdCol (v : BitVec 6) (s : State) : (pushSextet v s).sdCol = s.sdCol := rfl
@[simp] theorem pushSextet_oeLevel (v : BitVec 6) (s : State) : (pushSextet v s).oeLevel = s.oeLevel := rfl
@[simp] theorem pushSextet_latLevel (v : BitVec 6) (s : State) : (pushSextet v s).latLevel = s.latLevel := rfl
@[simp] theorem pushSextet_addrValue (v : BitVec 6) (s : State) : (pushSextet v s).addrValue = s.addrValue := rfl
@[simp] theorem pushSextet_fb (v : BitVec 6) (s : State) : (pushSextet v s).fb = s.fb := rfl
@[simp] theorem pushSextet_bps (v : BitVec 6) (s : State) : (pushSextet v s).bps = s.bps := rfl
@[simp] theorem pushSextet_rxb (v : BitVec 6) (s : State) : (pushSextet v s).rxb = s.rxb := rfl
@[simp] theorem pushSextet_cand (v : BitVec 6) (s : State) : (pushSextet v s).cand = s.cand := rfl
@[simp] theorem pushSextet_cfg (v : BitVec 6) (s : State) : (pushSextet v s).cfg = s.cfg := rfl
@[simp] theorem pushSextet_dec (v : BitVec 6) (s : State) : (pushSextet v s).dec = { s.dec with acc := (s.dec.acc <<< 6) ||| v.setWidth 24, k := s.dec.k + 1 } := rfl
@[simp] theorem pushSextet_taken (v : BitVec 6) (s : State) : (pushSextet v s).taken = s.taken := rfl
@[simp] theorem pushSextet_link (v : BitVec 6) (s : State) : (pushSextet v s).link = s.link := rfl
@[simp] theorem pushSextet_shifterReady (v : BitVec 6) (s : State) : (pushSextet v s).shifterReady = s.shifterReady := rfl
@[simp] theorem pushSextet_sched (v : BitVec 6) (s : State) : (pushSextet v s).sched = s.sched := rfl
@[simp] theorem pushSextet_tick (v : BitVec 6) (s : State) : (pushSextet v s).tick = s.tick := rfl
@[simp] theorem pushSextet_trace (v : BitVec 6) (s : State) : (pushSextet v s).trace = s.trace := rfl

/-! ## clearGroup -/

@[simp] theorem clearGroup_rxLen (s : State) : (clearGroup s).rxLen = s.rxLen := rfl
@[simp] theorem clearGroup_rawRemaining (s : State) : (clearGroup s).rawRemaining = s.rawRemaining := rfl
@[simp] theorem clearGroup_rawOffset (s : State) : (clearGroup s).rawOffset = s.rawOffset := rfl
@[simp] theorem clearGroup_rxPhase (s : State) : (clearGroup s).rxPhase = s.rxPhase := rfl
@[simp] theorem clearGroup_encActive (s : State) : (clearGroup s).encActive = s.encActive := rfl
@[simp] theorem clearGroup_encR (s : State) : (clearGroup s).encR = s.encR := rfl
@[simp] theorem clearGroup_encX (s : State) : (clearGroup s).encX = s.encX := rfl
@[simp] theorem clearGroup_hfNew (s : State) : (clearGroup s).hfNew = s.hfNew := rfl
@[simp] theorem clearGroup_sdBit (s : State) : (clearGroup s).sdBit = s.sdBit := rfl
@[simp] theorem clearGroup_sdRow (s : State) : (clearGroup s).sdRow = s.sdRow := rfl
@[simp] theorem clearGroup_sdPhase (s : State) : (clearGroup s).sdPhase = s.sdPhase := rfl
@[simp] theorem clearGroup_sdCol (s : State) : (clearGroup s).sdCol = s.sdCol := rfl
@[simp] theorem clearGroup_oeLevel (s : State) : (clearGroup s).oeLevel = s.oeLevel := rfl
@[simp] theorem clearGroup_latLevel (s : State) : (clearGroup s).latLevel = s.latLevel := rfl
@[simp] theorem clearGroup_addrValue (s : State) : (clearGroup s).addrValue = s.addrValue := rfl
@[simp] theorem clearGroup_fb (s : State) : (clearGroup s).fb = s.fb := rfl
@[simp] theorem clearGroup_bps (s : State) : (clearGroup s).bps = s.bps := rfl
@[simp] theorem clearGroup_rxb (s : State) : (clearGroup s).rxb = s.rxb := rfl
@[simp] theorem clearGroup_cand (s : State) : (clearGroup s).cand = s.cand := rfl
@[simp] theorem clearGroup_cfg (s : State) : (clearGroup s).cfg = s.cfg := rfl
@[simp] theorem clearGroup_dec (s : State) : (clearGroup s).dec = { s.dec with acc := 0, k := 0 } := rfl
@[simp] theorem clearGroup_taken (s : State) : (clearGroup s).taken = s.taken := rfl
@[simp] theorem clearGroup_link (s : State) : (clearGroup s).link = s.link := rfl
@[simp] theorem clearGroup_shifterReady (s : State) : (clearGroup s).shifterReady = s.shifterReady := rfl
@[simp] theorem clearGroup_sched (s : State) : (clearGroup s).sched = s.sched := rfl
@[simp] theorem clearGroup_tick (s : State) : (clearGroup s).tick = s.tick := rfl
@[simp] theorem clearGroup_trace (s : State) : (clearGroup s).trace = s.trace := rfl

/-! ## storeByte -/

@[simp] theorem storeByte_rxLen (s : State) (b : Buf) (i : Nat) (v : Byte) : (storeByte s b i v).rxLen = s.rxLen := rfl
@[simp] theorem storeByte_rawRemaining (s : State) (b : Buf) (i : Nat) (v : Byte) : (storeByte s b i v).rawRemaining = s.rawRemaining := rfl
@[simp] theorem storeByte_rawOffset (s : State) (b : Buf) (i : Nat) (v : Byte) : (storeByte s b i v).rawOffset = s.rawOffset := rfl
@[simp] theorem storeByte_rxPhase (s : State) (b : Buf) (i : Nat) (v : Byte) : (storeByte s b i v).rxPhase = s.rxPhase := rfl
@[simp] theorem storeByte_encActive (s : State) (b : Buf) (i : Nat) (v : Byte) : (storeByte s b i v).encActive = s.encActive := rfl
@[simp] theorem storeByte_encR (s : State) (b : Buf) (i : Nat) (v : Byte) : (storeByte s b i v).encR = s.encR := rfl
@[simp] theorem storeByte_encX (s : State) (b : Buf) (i : Nat) (v : Byte) : (storeByte s b i v).encX = s.encX := rfl
@[simp] theorem storeByte_hfNew (s : State) (b : Buf) (i : Nat) (v : Byte) : (storeByte s b i v).hfNew = s.hfNew := rfl
@[simp] theorem storeByte_sdBit (s : State) (b : Buf) (i : Nat) (v : Byte) : (storeByte s b i v).sdBit = s.sdBit := rfl
@[simp] theorem storeByte_sdRow (s : State) (b : Buf) (i : Nat) (v : Byte) : (storeByte s b i v).sdRow = s.sdRow := rfl
@[simp] theorem storeByte_sdPhase (s : State) (b : Buf) (i : Nat) (v : Byte) : (storeByte s b i v).sdPhase = s.sdPhase := rfl
@[simp] theorem storeByte_sdCol (s : State) (b : Buf) (i : Nat) (v : Byte) : (storeByte s b i v).sdCol = s.sdCol := rfl
@[simp] theorem storeByte_oeLevel (s : State) (b : Buf) (i : Nat) (v : Byte) : (storeByte s b i v).oeLevel = s.oeLevel := rfl
@[simp] theorem storeByte_latLevel (s : State) (b : Buf) (i : Nat) (v : Byte) : (storeByte s b i v).latLevel = s.latLevel := rfl
@[simp] theorem storeByte_addrValue (s : State) (b : Buf) (i : Nat) (v : Byte) : (storeByte s b i v).addrValue = s.addrValue := rfl
@[simp] theorem storeByte_fb (s : State) (b : Buf) (i : Nat) (v : Byte) : (storeByte s b i v).fb = if b = .fb then memSet s.fb i v else s.fb := rfl
@[simp] theorem storeByte_bps (s : State) (b : Buf) (i : Nat) (v : Byte) : (storeByte s b i v).bps = if b = .bps then memSet s.bps i v else s.bps := rfl
@[simp] theorem storeByte_rxb (s : State) (b : Buf) (i : Nat) (v : Byte) : (storeByte s b i v).rxb = if b = .rxb then memSet s.rxb i v else s.rxb := rfl
@[simp] theorem storeByte_cand (s : State) (b : Buf) (i : Nat) (v : Byte) : (storeByte s b i v).cand = if b = sharedBuf s.cfg then candAdd s i v else s.cand := rfl
@[simp] theorem storeByte_cfg (s : State) (b : Buf) (i : Nat) (v : Byte) : (storeByte s b i v).cfg = s.cfg := rfl
@[simp] theorem storeByte_dec (s : State) (b : Buf) (i : Nat) (v : Byte) : (storeByte s b i v).dec = s.dec := rfl
@[simp] theorem storeByte_taken (s : State) (b : Buf) (i : Nat) (v : Byte) : (storeByte s b i v).taken = s.taken := rfl
@[simp] theorem storeByte_link (s : State) (b : Buf) (i : Nat) (v : Byte) : (storeByte s b i v).link = s.link := rfl
@[simp] theorem storeByte_shifterReady (s : State) (b : Buf) (i : Nat) (v : Byte) : (storeByte s b i v).shifterReady = s.shifterReady := rfl
@[simp] theorem storeByte_sched (s : State) (b : Buf) (i : Nat) (v : Byte) : (storeByte s b i v).sched = s.sched := rfl
@[simp] theorem storeByte_tick (s : State) (b : Buf) (i : Nat) (v : Byte) : (storeByte s b i v).tick = s.tick := rfl
@[simp] theorem storeByte_trace (s : State) (b : Buf) (i : Nat) (v : Byte) : (storeByte s b i v).trace = s.trace := rfl

end Sys2Proof.Machine
end

