-- ==== Sys2Proof/Laws/Memory.lean ====
section
/-! SUPPORT. The byte arrays: a read after a write, and the canonical form, which every memory operation keeps. -/

namespace Sys2Proof.Machine

/-- A read after a write to the same address gives the value written; every other address is left alone. -/
theorem memGet_memSet (m : Memory) (a : Nat) (v : Byte) (b : Nat) :
    memGet (memSet m a v) b = if b = a then some v else memGet m b := by
  induction m with
  | nil => by_cases h : b = a <;> simp [memSet, memGet, h]
  | cons p rest ih =>
    obtain ⟨c, w⟩ := p
    by_cases hac : a < c
    · by_cases h : b = a <;> simp [memSet, memGet, hac, h]
    · by_cases hc : a = c
      · subst hc; by_cases h : b = a <;> simp [memSet, memGet, h]
      · by_cases hb : b = c
        · subst hb
          simp [memSet, memGet, hac, hc, Ne.symm hc]
        · simp [memSet, memGet, hac, hc, hb, ih]

/-- The addresses a write lists are those listed before and its own. -/
theorem mem_memSet_fst (m : Memory) (a : Nat) (v : Byte) (b : Nat)
    (h : b ∈ (memSet m a v).map Prod.fst) : b = a ∨ b ∈ m.map Prod.fst := by
  induction m with
  | nil => simpa [memSet] using h
  | cons p rest ih =>
    obtain ⟨c, w⟩ := p
    by_cases hac : a < c
    · simpa [memSet, hac] using h
    · by_cases hc : a = c
      · subst hc
        simp [memSet] at h ⊢
        tauto
      · simp only [memSet, hac, hc, if_false, List.map_cons, List.mem_cons] at h ⊢
        rcases h with rfl | h
        · exact .inr (.inl rfl)
        · rcases ih h with h | h
          · exact .inl h
          · exact .inr (.inr h)

/-- A write keeps the canonical form. -/
theorem memSet_wf (m : Memory) (a : Nat) (v : Byte) (h : m.wf) : (memSet m a v).wf := by
  induction m with
  | nil => simp [memSet, Memory.wf]
  | cons p rest ih =>
    obtain ⟨c, w⟩ := p
    obtain ⟨hlt, hrest⟩ := List.pairwise_cons.mp h
    by_cases hac : a < c
    · simp only [memSet, hac, if_true]
      refine List.pairwise_cons.mpr ⟨?_, h⟩
      intro x hx
      rcases List.mem_cons.mp hx with rfl | hx
      · exact hac
      · exact lt_trans hac (hlt x hx)
    · by_cases hc : a = c
      · subst hc
        simp only [memSet, lt_irrefl, if_false, if_true]
        exact List.pairwise_cons.mpr ⟨hlt, hrest⟩
      · simp only [memSet, hac, hc, if_false]
        refine List.pairwise_cons.mpr ⟨?_, ih hrest⟩
        intro x hx
        rcases mem_memSet_fst rest a v x hx with rfl | hx
        · simp only; omega
        · exact hlt x hx

/-- A write below a length lists nothing at or above it. -/
theorem memSet_below (m : Memory) (a : Nat) (v : Byte) (n : Nat) (h : Memory.below m n) (ha : a < n) :
    Memory.below (memSet m a v) n := by
  intro p hp
  rcases mem_memSet_fst m a v p.1 (List.mem_map_of_mem hp) with h1 | h1
  · omega
  · obtain ⟨q, hq, he⟩ := List.mem_map.mp h1
    rw [← he]
    exact h q hq

/-- The members of a memory after a write: the new cell, or cells that were there. -/
theorem mem_memSet (m : Memory) (a : Nat) (v : Byte) (p : Host.Cell) (h : p ∈ memSet m a v) :
    p = (a, v) ∨ p ∈ m := by
  induction m with
  | nil => simpa [memSet] using h
  | cons q rest ih =>
    obtain ⟨c, w⟩ := q
    by_cases hac : a < c
    · simpa [memSet, hac] using h
    · by_cases hc : a = c
      · subst hc
        simp [memSet] at h ⊢
        tauto
      · simp only [memSet, hac, hc, if_false, List.mem_cons] at h ⊢
        rcases h with rfl | h
        · exact .inr (.inl rfl)
        · rcases ih h with h | h
          · exact .inl h
          · exact .inr (.inr h)

/-- Reset memory is canonical. -/
theorem resetWith_memories_wf (c : Config) :
    (State.resetWith c).fb.wf ∧ (State.resetWith c).bps.wf ∧ (State.resetWith c).rxb.wf := by
  simp [State.resetWith, Memory.wf]

/-- A byte store keeps the canonical form of each of the three arrays. -/
theorem storeByte_keeps_wf (s : State) (b : Buf) (i : Nat) (v : Byte) (hf : s.fb.wf) (hb : s.bps.wf) (hr : s.rxb.wf) :
    (storeByte s b i v).fb.wf ∧ (storeByte s b i v).bps.wf ∧ (storeByte s b i v).rxb.wf := by
  refine ⟨?_, ?_, ?_⟩
  · simp only [storeByte_fb]; split
    · exact memSet_wf _ _ _ hf
    · exact hf
  · simp only [storeByte_bps]; split
    · exact memSet_wf _ _ _ hb
    · exact hb
  · simp only [storeByte_rxb]; split
    · exact memSet_wf _ _ _ hr
    · exact hr

/-- The record that a table word is placed as is canonical. -/
theorem placeRecord_keeps_wf (record : List Byte) (s : State) : (placeRecord record s).rxb.wf := by
  have key : ∀ (l : List Byte) (n : Nat),
      (((l.zipIdx n).map (fun p => (p.2, p.1))).map Prod.fst).Pairwise (· < ·) := by
    intro l
    induction l with
    | nil => intro n; simp
    | cons x xs ih =>
      intro n
      simp only [List.zipIdx_cons, List.map_cons, List.pairwise_cons]
      refine ⟨?_, ih (n + 1)⟩
      intro y hy
      simp only [List.mem_map] at hy
      obtain ⟨q, ⟨p, hp, rfl⟩, rfl⟩ := hy
      have := List.le_snd_of_mem_zipIdx hp
      simp only at this ⊢
      omega
  exact key record 0

end Sys2Proof.Machine
end

