-- ==== Sys2Proof/Laws/Ops.lean ====
section
/-! SUPPORT. What each shared operation can do, said once: sequencing, the byte accesses, the candidate sets, the output
of a decoded byte, the handoff. Later proofs cite these and do not unfold the operations. -/

namespace Sys2Proof.Machine

/-! ## Sequencing -/

@[simp] theorem andThen_next (s : State) (k : State → Result) : andThen (.next s) k = k s := rfl
@[simp] theorem andThen_fault (f : Fault) (k : State → Result) : andThen (.fault f) k = .fault f := rfl
@[simp] theorem andThen_refused (q : Refusal) (k : State → Result) : andThen (.refused q) k = .refused q := rfl

/-- A sequence answers a next state exactly when both parts do. -/
theorem andThen_eq_next {r : Result} {k : State → Result} {t : State} :
    andThen r k = .next t ↔ ∃ s, r = .next s ∧ k s = .next t := by
  cases r <;> simp [andThen]

@[simp] theorem unlessFailed_next (s : State) (k : State → Result) :
    unlessFailed (.next s) k = if decFailed s then .next s else k s := rfl
@[simp] theorem unlessFailed_fault (f : Fault) (k : State → Result) : unlessFailed (.fault f) k = .fault f := rfl
@[simp] theorem unlessFailed_refused (q : Refusal) (k : State → Result) :
    unlessFailed (.refused q) k = .refused q := rfl

/-- A guarded sequence answers a next state when its first part does, and then either the record has failed there or
the second part answers. -/
theorem unlessFailed_eq_next {r : Result} {k : State → Result} {t : State} :
    unlessFailed r k = .next t ↔
      ∃ s, r = .next s ∧ ((decFailed s = true ∧ t = s) ∨ (decFailed s = false ∧ k s = .next t)) := by
  cases r with
  | next s =>
    rw [unlessFailed_next]
    constructor
    · intro h
      cases hf : decFailed s
      · simp only [hf] at h; exact ⟨s, rfl, .inr ⟨hf, h⟩⟩
      · simp only [hf, if_true, Host.Outcome.next.injEq] at h; exact ⟨s, rfl, .inl ⟨hf, h.symm⟩⟩
    · rintro ⟨u, hu, h⟩
      cases hu
      rcases h with ⟨hf, rfl⟩ | ⟨hf, h⟩
      · simp [hf]
      · simp [hf, h]
  | fault f => simp
  | refused q => simp

/-! ## Byte accesses -/

/-- The receive buffer is never the shared one (R63, R70). -/
theorem rxb_not_shared (c : Config) : Buf.rxb ≠ sharedBuf c := by
  cases h : c.encPlace <;> simp [sharedBuf, h]

/-- A read of the receive buffer returns the current byte (R71). -/
@[simp] theorem readValue_rxb (s : State) (i : Nat) : readValue s .rxb i = currentByte s .rxb i := by
  simp [readValue, currentByte, rxb_not_shared]

@[simp] theorem afterRead_rxb (s : State) (i : Nat) : afterRead s .rxb i = s := by
  simp [afterRead, rxb_not_shared]

/-- A read changes nothing but the counter of free values (R66). -/
theorem afterRead_eq (s : State) (b : Buf) (i : Nat) : afterRead s b i = { s with tick := (afterRead s b i).tick } := by
  unfold afterRead; split <;> rfl

/-- A read inside the buffer goes on with the value read. -/
theorem readThen_of_lt {s : State} {b : Buf} {i : Nat} {k : Byte → State → Result} (h : i < bufLen s.cfg b) :
    readThen s b i k = k (readValue s b i) (afterRead s b i) := by
  simp [readThen, h]

/-- A read answers a next state only inside the buffer. -/
theorem readThen_eq_next {s t : State} {b : Buf} {i : Nat} {k : Byte → State → Result} :
    readThen s b i k = .next t ↔ i < bufLen s.cfg b ∧ k (readValue s b i) (afterRead s b i) = .next t := by
  unfold readThen; split <;> simp [*]

/-- A write inside the buffer stores the byte. -/
theorem writeByte_of_lt {s : State} {b : Buf} {i : Nat} {v : Byte} (h : i < bufLen s.cfg b) :
    writeByte s b i v = .next (storeByte s b i v) := by
  simp [writeByte, h]

/-- All a write can answer with a next state: the byte stored, inside the buffer (R67). -/
theorem writeByte_eq_next {s t : State} {b : Buf} {i : Nat} {v : Byte} :
    writeByte s b i v = .next t ↔ i < bufLen s.cfg b ∧ t = storeByte s b i v := by
  unfold writeByte; split <;> simp [*, eq_comm]

/-- The bytes of a buffer after a store. -/
theorem memGet_storeByte (s : State) (b b' : Buf) (i j : Nat) (v : Byte) :
    memGet (bufOf (storeByte s b i v) b') j = if b' = b ∧ j = i then some v else memGet (bufOf s b') j := by
  cases b <;> cases b' <;> simp [bufOf, memGet_memSet]

/-- A store into the receive buffer touches no candidate set (R63). -/
@[simp] theorem storeByte_rxb_eq (s : State) (i : Nat) (v : Byte) :
    storeByte s .rxb i v = { s with rxb := memSet s.rxb i v } := by
  simp [storeByte, rxb_not_shared]

/-- A link byte is stored at the cursor when the receive buffer has room. -/
theorem storeRecord_of_lt {d : Byte} {s : State} (h : s.rxLen < s.cfg.rxcap) :
    storeRecord d s = .next { s with rxb := memSet s.rxb s.rxLen d, rxLen := s.rxLen + 1 } := by
  simp [storeRecord, writeByte, bufLen, h]

/-! ## Candidate sets (R72) -/

theorem candKey_injective (a b : Option Byte) (h : candKey a = candKey b) : a = b := by
  cases a <;> cases b <;> simp only [candKey] at h
  · rfl
  · omega
  · omega
  · exact congrArg some (BitVec.eq_of_toNat_eq (Nat.succ.inj h))

/-- The members after an insertion: the new one and those before. -/
theorem mem_candInsert (v w : Option Byte) (c : List (Option Byte)) : w ∈ candInsert v c ↔ w = v ∨ w ∈ c := by
  induction c with
  | nil => simp [candInsert]
  | cons x rest ih =>
    simp only [candInsert]
    split
    · simp
    · split
      · rename_i h
        have := candKey_injective v x h
        subst this
        simp
      · simp only [List.mem_cons, ih]; tauto

/-- A write that leaves its byte as it was lists no set (R72). -/
theorem candAdd_same {s : State} {i : Nat} {v : Byte} (hc : candGet s.cand i = none)
    (hm : memGet (bufOf s (sharedBuf s.cfg)) i = some v) : candAdd s i v = s.cand := by
  simp [candAdd, candOf, hc, hm, candInsert]

/-- The set listed for an index after one is listed. -/
theorem candGet_candPut (m : CandMap) (i : Nat) (c : List (Option Byte)) (j : Nat) :
    candGet (candPut m i c) j = if j = i then some c else candGet m j := by
  induction m with
  | nil => by_cases h : j = i <;> simp [candPut, candGet, h]
  | cons p rest ih =>
    obtain ⟨k, d⟩ := p
    by_cases hik : i < k
    · by_cases h : j = i <;> simp [candPut, candGet, hik, h]
    · by_cases hk : i = k
      · subst hk; by_cases h : j = i <;> simp [candPut, candGet, h]
      · by_cases hb : j = k
        · subst hb
          simp [candPut, candGet, hik, hk, Ne.symm hk]
        · simp [candPut, candGet, hik, hk, hb, ih]

/-- A draw returns a member of a set that has one (R72). -/
theorem candPick_mem (c : List (Option Byte)) (t : Nat) (h : c ≠ []) : candPick c t ∈ c := by
  match c with
  | [] => exact absurd rfl h
  | [v] => simp [candPick]
  | v :: w :: rest =>
    have hlt : Config.freeDraw t % (rest.length + 2) < (v :: w :: rest).length :=
      Nat.mod_lt _ (Nat.succ_pos _)
    simp only [candPick, List.getElem?_eq_getElem hlt, Option.getD_some]
    exact List.getElem_mem hlt

/-! ## Output of decoded bytes -/

/-- A payload byte that fits is stored and the cursor moves on (R210, R243). -/
theorem outByte_of_lt {v : Byte} {s : State} (h : s.dec.o < frameBytes s.cfg) :
    outByte v s = .next { storeByte s .fb s.dec.o v with dec := { s.dec with o := s.dec.o + 1 } } := by
  simp [outByte, storeOut, writeByte, bufLen, h]

/-- A payload byte that does not fit fails the record (R207). -/
theorem outByte_of_ge {v : Byte} {s : State} (h : frameBytes s.cfg ≤ s.dec.o) :
    outByte v s = .next (raiseFail .overflow s) := by
  simp [outByte, h]

/-- A payload byte never stops the machine. -/
theorem outByte_completes (v : Byte) (s : State) : ∃ t, outByte v s = .next t := by
  by_cases h : s.dec.o < frameBytes s.cfg
  · exact ⟨_, outByte_of_lt h⟩
  · exact ⟨_, outByte_of_ge (by omega)⟩

@[simp] theorem decFailed_raiseFail (k : FailKind) (s : State) : decFailed (raiseFail k s) = true := rfl

/-- One literal copied, when the record and the frame have room for it (R210). -/
theorem copyLiterals_succ {m : Nat} {s : State} (hi : s.dec.i < s.cfg.rxcap) (ho : s.dec.o < frameBytes s.cfg) :
    copyLiterals (m + 1) s = copyLiterals m
      { storeByte s .fb s.dec.o (currentByte s .rxb s.dec.i) with
        dec := { s.dec with i := s.dec.i + 1, o := s.dec.o + 1 } } := by
  simp [copyLiterals, Nat.not_le.mpr ho, readThen, bufLen, hi, storeOut, writeByte, ho, advanceIn]

/-! ## The reference decoder of a COBS record -/

/-- Nothing is left of an empty record. -/
@[simp] theorem cobsBlocksOf_nil (fuel : Nat) : cobsBlocksOf fuel [] = ([], true) := by cases fuel <;> rfl

/-- A block that fits the record gives its literals, its zero unless the code is `0xFF` or the block ends the record, and
what the rest gives (R99). -/
theorem cobsBlocksOf_block {fuel : Nat} {c : Byte} {rest : List Byte} (hc : c ≠ 0x00)
    (hl : c.toNat - 1 ≤ rest.length) :
    cobsBlocksOf (fuel + 1) (c :: rest) =
      (rest.take (c.toNat - 1) ++ (if c ≠ 0xFF ∧ c.toNat - 1 < rest.length then [0x00] else []) ++
          (cobsBlocksOf fuel (rest.drop (c.toNat - 1))).1,
        (cobsBlocksOf fuel (rest.drop (c.toNat - 1))).2) := by
  have h : ¬ (c = 0x00 ∨ rest.length < c.toNat - 1) := by
    rintro (h | h)
    · exact hc h
    · omega
  rw [cobsBlocksOf, if_neg h]

/-! ## Labels -/

/-- The label of a hold as a power of two (R167). -/
theorem holdLabel_eq (c : Config) (b : Nat) : holdLabel c b = 2 ^ b * c.tUnit := by
  simp [holdLabel, Nat.shiftLeft_eq]

/-! ## Handoff (R280, R281, R284) -/

theorem postPublish_refresh {s : State} (h : s.cfg.encPlace = .refresh) : postPublish s = s := by
  simp [postPublish, h]

/-- With `RECEIVE` a publish is taken in its own step and the pass starts. -/
theorem postPublish_receive {s : State} (h : s.cfg.encPlace = .receive) (hn : s.hfNew = true) :
    postPublish s =
      { s with hfNew := false, taken := true, encActive := true, encR := 0, encX := 0, rxPhase := .encode } := by
  simp [postPublish, h, hn, startPass, takeIfNew]

/-- The class of a code byte is the class the block loop runs (R99, R210). -/
theorem runCode_eq (c : Byte) (s : State) : runCode c s = exec (decodeCode c) s := by
  unfold runCode decodeCode
  split
  · rfl
  · split <;> rfl

/-- The class of a stored text byte is the class the symbol loop runs (R103, R243). -/
theorem runSym_eq (d : Byte) (s : State) : runSym d s = exec (decodeSym d) s := by
  unfold runSym decodeSym
  repeat' split
  all_goals rfl

/-- The class of a link byte is the decoder's reading of it in the state's format (R200). -/
theorem linkOp_decode (s : State) (d : Byte) (rest : List Byte) :
    decode (linkFormat s) (d :: rest) = .ok (linkOp s d, rest) := by
  cases h : s.cfg.framing <;> simp [decode, decodeByte, linkFormat, linkOp, h]

end Sys2Proof.Machine
end

