-- ==== Sys2Proof/Laws/PerInstr.lean ====
section
/-! SUPPORT. Statements about every operation as syntax, one lemma per constructor. -/

namespace Sys2Proof.Laws.OneUnit

/-- An operation is one byte in its format, or has no format and no byte (R90, R112). -/
def Statement (i : Instr) : Prop :=
  ((formatOf i).isSome = true ∧ (encode i).length = 1) ∨ (formatOf i = none ∧ encode i = [])

theorem cobsTerm : Statement .cobsTerm := by simp [Statement, formatOf, encode]
theorem cobsData (d : Byte) : Statement (.cobsData d) := by simp [Statement, formatOf, encode]
theorem rawData (d : Byte) : Statement (.rawData d) := by simp [Statement, formatOf, encode]
theorem textLf : Statement .textLf := by simp [Statement, formatOf, encode]
theorem textCr : Statement .textCr := by simp [Statement, formatOf, encode]
theorem textSent1 : Statement .textSent1 := by simp [Statement, formatOf, encode]
theorem textData (d : Byte) : Statement (.textData d) := by simp [Statement, formatOf, encode]
theorem cobsCode0 : Statement .cobsCode0 := by simp [Statement, formatOf, encode]
theorem cobsCode (c : Byte) : Statement (.cobsCode c) := by simp [Statement, formatOf, encode]
theorem cobsCodeFF : Statement .cobsCodeFF := by simp [Statement, formatOf, encode]
theorem b64Upper (d : Byte) : Statement (.b64Upper d) := by simp [Statement, formatOf, encode]
theorem b64Lower (d : Byte) : Statement (.b64Lower d) := by simp [Statement, formatOf, encode]
theorem b64Digit (d : Byte) : Statement (.b64Digit d) := by simp [Statement, formatOf, encode]
theorem b64Plus : Statement .b64Plus := by simp [Statement, formatOf, encode]
theorem b64Slash : Statement .b64Slash := by simp [Statement, formatOf, encode]
theorem b64Pad : Statement .b64Pad := by simp [Statement, formatOf, encode]
theorem b64Invalid (d : Byte) : Statement (.b64Invalid d) := by simp [Statement, formatOf, encode]
theorem ackK : Statement .ackK := by simp [Statement, formatOf, encode]
theorem ackE : Statement .ackE := by simp [Statement, formatOf, encode]
theorem encStart : Statement .encStart := by simp [Statement, formatOf, encode]
theorem encPair : Statement .encPair := by simp [Statement, formatOf, encode]
theorem encEnd : Statement .encEnd := by simp [Statement, formatOf, encode]
theorem sdBlank : Statement .sdBlank := by simp [Statement, formatOf, encode]
theorem sdShift : Statement .sdShift := by simp [Statement, formatOf, encode]
theorem sdAddr : Statement .sdAddr := by simp [Statement, formatOf, encode]
theorem sdLatOn : Statement .sdLatOn := by simp [Statement, formatOf, encode]
theorem sdLatOff : Statement .sdLatOff := by simp [Statement, formatOf, encode]
theorem sdEnable : Statement .sdEnable := by simp [Statement, formatOf, encode]
theorem sdHold : Statement .sdHold := by simp [Statement, formatOf, encode]
theorem sdBlankEnd : Statement .sdBlankEnd := by simp [Statement, formatOf, encode]
theorem sdTake : Statement .sdTake := by simp [Statement, formatOf, encode]
theorem hfPublish : Statement .hfPublish := by simp [Statement, formatOf, encode]
theorem hfTake : Statement .hfTake := by simp [Statement, formatOf, encode]
theorem decCobs : Statement .decCobs := by simp [Statement, formatOf, encode]
theorem decText : Statement .decText := by simp [Statement, formatOf, encode]

end Sys2Proof.Laws.OneUnit
end

