-- ==== Sys2Proof/Tests/Slice0.lean ====
section
/-! SUPPORT. The model's own tests: ill-formed terms and configurations, words written out from the spec's tables, worked
examples and vectors of 95_test_vectors.md one step each, and a witness for every statement with hypotheses. -/

namespace Sys2Proof.Tests

open Sys2Proof Sys2Proof.Machine

/-- The idle state of 95_test_vectors.md in the configuration `TINY`. -/
def tinyIdle (f : Framing) (p : EncPlace) : State := State.resetWith (Config.tiny f p)

/-- A field of the next state; none for a fault or a refusal. -/
def nextField {α : Type} (r : Result) (f : State → α) : Option α :=
  match r with
  | .next s => some (f s)
  | .fault _ => none
  | .refused _ => none

/-- The state in the middle of a record decode: the record, and where its locals stand. -/
def midDecode (f : Framing) (record : List Byte) (i o : Nat) : State :=
  { placeRecord record (tinyIdle f .refresh) with
    dec := { n := record.length, i := i, o := o, acc := 0, k := 0, status := .running } }

/-- The configuration of the worked examples of 41_scan_driver.md: `W = 2`, `H = 4`. -/
def scanState (p : SdPhase) (b r : Nat) : State :=
  { State.resetWith { Config.tiny .cobs .receive with height := 4, rxcap := 18 } with
    sdPhase := p, sdBit := b, sdRow := r }

/-! ## Ill-formed terms: every check of Instr.wf refuses one, and every check of configOk -/

theorem test_illformed_cobsData : (Instr.cobsData 0x00).wf = false := by decide
theorem test_illformed_textData_lf : (Instr.textData 0x0A).wf = false := by decide
theorem test_illformed_textData_cr : (Instr.textData 0x0D).wf = false := by decide
theorem test_illformed_cobsCode_zero : (Instr.cobsCode 0x00).wf = false := by decide
theorem test_illformed_cobsCode_max : (Instr.cobsCode 0xFF).wf = false := by decide
theorem test_illformed_b64Upper : (Instr.b64Upper 0x5B).wf = false := by decide
theorem test_illformed_b64Lower : (Instr.b64Lower 0x60).wf = false := by decide
theorem test_illformed_b64Digit : (Instr.b64Digit 0x3A).wf = false := by decide
theorem test_illformed_b64Invalid : (Instr.b64Invalid 0x3D).wf = false := by decide
theorem test_wellformed_edges :
    (Instr.cobsCode 0xFE).wf && (Instr.b64Invalid 0x2A).wf && (Instr.b64Invalid 0x7B).wf && (Instr.textData 0x00).wf
      = true := by decide

theorem test_config_tiny_ok : configOk (Config.tiny .cobs .receive) && configOk (Config.tiny .text .refresh) = true := by
  decide
theorem test_config_width : configOk { Config.tiny .cobs .receive with width := 0 } = false := by decide
theorem test_config_height_small : configOk { Config.tiny .cobs .receive with height := 0 } = false := by decide
theorem test_config_height_odd : configOk { Config.tiny .cobs .receive with height := 3, rxcap := 99 } = false := by decide
theorem test_config_depth : configOk { Config.tiny .cobs .receive with depth := 8 } = false := by decide
/-- V-C16: `RXCAP = 257` is one short of `RXCAP_MIN(COBS)` for 256 bytes. -/
theorem test_config_rxcap_cobs :
    configOk { Config.tiny .cobs .receive with width := 16, height := 8, rxcap := 257, addrBits := 2 } = false
      ∧ configOk { Config.tiny .cobs .receive with width := 16, height := 8, rxcap := 258, addrBits := 2 } = true := by
  decide
theorem test_config_rxcap_text : configOk { Config.tiny .text .receive with rxcap := 11 } = false := by decide
theorem test_config_addr_bits :
    configOk { Config.tiny .cobs .receive with height := 4, rxcap := 99, addrBits := 0 } = false := by decide
/-- V-H8. -/
theorem test_config_double : configOk { Config.tiny .cobs .receive with buffering := .double } = false := by decide
theorem test_config_tUnit : configOk { Config.tiny .cobs .receive with tUnit := 0 } = false := by decide
theorem test_config_tLatch : configOk { Config.tiny .cobs .receive with tLatch := 0 } = false := by decide

/-! ## Words of each family, from the class tables of R95, R96, R99, R103, R108 -/

theorem test_word_cobsTerm : decode .linkCobs [0x00, 0x01] = .ok (.cobsTerm, [0x01]) := rfl
theorem test_word_cobsData : decode .linkCobs [0x0A] = .ok (.cobsData 0x0A, []) := rfl
theorem test_word_rawData : decode (.linkText true true) [0x00] = .ok (.rawData 0x00, []) := rfl
theorem test_word_textLf : decode (.linkText false true) [0x0A] = .ok (.textLf, []) := rfl
theorem test_word_textCr : decode (.linkText false true) [0x0D] = .ok (.textCr, []) := rfl
theorem test_word_textSent1 : decode (.linkText false true) [0x00] = .ok (.textSent1, []) := rfl
theorem test_word_textData_zero : decode (.linkText false false) [0x00] = .ok (.textData 0x00, []) := rfl
theorem test_word_textData_ff : decode (.linkText false true) [0xFF] = .ok (.textData 0xFF, []) := rfl
theorem test_word_cobsCode0 : decode .code [0x00] = .ok (.cobsCode0, []) := rfl
theorem test_word_cobsCode : decode .code [0x01] = .ok (.cobsCode 0x01, []) := rfl
theorem test_word_cobsCodeFF : decode .code [0xFF] = .ok (.cobsCodeFF, []) := rfl
theorem test_word_b64Upper : decode .sym [0x41] = .ok (.b64Upper 0x41, []) := rfl
theorem test_word_b64Lower : decode .sym [0x61] = .ok (.b64Lower 0x61, []) := rfl
theorem test_word_b64Digit : decode .sym [0x30] = .ok (.b64Digit 0x30, []) := rfl
theorem test_word_b64Plus : decode .sym [0x2B] = .ok (.b64Plus, []) := rfl
theorem test_word_b64Slash : decode .sym [0x2F] = .ok (.b64Slash, []) := rfl
theorem test_word_b64Pad : decode .sym [0x3D] = .ok (.b64Pad, []) := rfl
theorem test_word_b64Invalid : decode .sym [0x5F] = .ok (.b64Invalid 0x5F, []) := rfl
theorem test_word_ackK : decode .ack [0x4B] = .ok (.ackK, []) := rfl
theorem test_word_ackE : decode .ack [0x45] = .ok (.ackE, []) := rfl
theorem test_word_ack_other : decode .ack [0x00] = .error (.notAnAcknowledge 0x00) := rfl
theorem test_word_none : decode .code [] = .error (.noByte .code) := rfl
theorem test_table_word_lf : decodeTableWord 8 0x0A = some .textLf := by decide
theorem test_table_word_codeFF : decodeTableWord 8 0xFF = some .cobsCodeFF := by decide
theorem test_table_word_ackE : decodeTableWord 8 0x45 = some .ackE := by decide

/-! ## Byte-stuffed framing -/

/-- V-C3: `03 11 22 06 33 44 55 66 77` gives `11 22 00 33 44 55 66 77`. -/
theorem test_cobsTerm_frame :
    nextField (exec .cobsTerm (placeRecord [0x03, 0x11, 0x22, 0x06, 0x33, 0x44, 0x55, 0x66, 0x77] (tinyIdle .cobs .refresh)))
      (fun t => (t.fb.map Prod.snd, t.hfNew, t.rxLen, t.trace)) =
    some ([0x11, 0x22, 0x00, 0x33, 0x44, 0x55, 0x66, 0x77], true, 0, [.publish]) := by decide

/-- V-C6 and V-H5's other side: a short record is dropped silently and the flag stays. -/
theorem test_cobsTerm_short :
    nextField (exec .cobsTerm (placeRecord [0x03, 0x11, 0x22] (tinyIdle .cobs .receive)))
      (fun t => (t.fb, t.hfNew, t.rxLen, t.rxPhase, t.trace)) =
    some ([(0, 0x11), (1, 0x22)], false, 0, .accept, [.fail .length]) := by decide

/-- The worked example of R203. -/
theorem test_cobsData_store :
    nextField (exec (.cobsData 0x42) { tinyIdle .cobs .receive with rxLen := 3 }) (fun t => (t.rxb, t.rxLen)) =
    some ([(3, 0x42)], 4) := by decide

/-- The worked example of R205 (`RXCAP = 16`). -/
theorem test_cobsData_overflow :
    nextField (exec (.cobsData 0x01) { tinyIdle .cobs .receive with rxLen := 16 })
      (fun t => (t.rxb, t.rxLen, t.trace)) = some ([], 0, [.fail .overflow]) := by decide

/-- The worked example of R212. -/
theorem test_cobsCode0 :
    nextField (exec .decCobs (placeRecord [0x02, 0x41, 0x00, 0x41] (tinyIdle .cobs .refresh)))
      (fun t => t.dec.status) = some (.failed .framing) := by decide

/-- V-C9: code `04` copies `05 06 07` and, with a byte left, a zero. -/
theorem test_cobsCode_block :
    nextField (exec (.cobsCode 0x04) (midDecode .cobs [0x04, 0x05, 0x06, 0x07, 0x08] 1 0))
      (fun t => (t.fb, t.dec.i, t.dec.o)) = some ([(0, 0x05), (1, 0x06), (2, 0x07), (3, 0x00)], 4, 4) := by decide

/-- V-C8: code `FF` needs 254 literals. -/
theorem test_cobsCodeFF_truncated :
    nextField (exec .cobsCodeFF (midDecode .cobs [0xFF, 0x01, 0x01] 1 0)) (fun t => (t.fb, t.dec.status)) =
    some ([], .failed .framing) := by decide

/-- V-C13: sixteen `01` codes: the ninth zero does not fit. -/
theorem test_decCobs_overflow :
    nextField (exec .decCobs (placeRecord (List.replicate 16 0x01) (tinyIdle .cobs .refresh)))
      (fun t => (t.fb.map Prod.snd, t.dec.status)) = some (List.replicate 8 0x00, .failed .overflow) := by decide

/-! ## Text framing -/

/-- V-T1: `AQIDBAUGBwg=`. -/
theorem test_textLf_frame :
    nextField (exec .textLf (placeRecord
      [0x41, 0x51, 0x49, 0x44, 0x42, 0x41, 0x55, 0x47, 0x42, 0x77, 0x67, 0x3D] (tinyIdle .text .refresh)))
      (fun t => (t.fb.map Prod.snd, t.hfNew, t.trace)) =
    some ([0x01, 0x02, 0x03, 0x04, 0x05, 0x06, 0x07, 0x08], true, [.publish, .linkOut 0x4B]) := by decide

/-- V-T7: an empty record. -/
theorem test_textLf_empty :
    nextField (exec .textLf (tinyIdle .text .receive)) (fun t => (t.fb, t.hfNew, t.trace)) =
    some ([], false, [.fail .length, .linkOut 0x45]) := by decide

/-- R245, and V-R4: a carriage return keeps the sentinel armed. -/
theorem test_textCr :
    nextField (exec .textCr (placeRecord [0xFF] (tinyIdle .text .receive))) (fun t => (t.rxLen, sentinelArmed t)) =
    some (1, true) := by decide

/-- The worked example of R246. -/
theorem test_textData_store :
    nextField (exec (.textData 0x41) (tinyIdle .text .receive)) (fun t => (t.rxb, t.rxLen)) =
    some ([(0, 0x41)], 1) := by decide

/-- The worked example of R247 (`RXCAP = 16`). -/
theorem test_textData_overflow :
    nextField (exec (.textData 0x41) { tinyIdle .text .receive with rxLen := 16 }) (fun t => (t.rxLen, t.trace)) =
    some (0, [.fail .overflow, .linkOut 0x45]) := by decide

/-- The worked examples of R248 to R252: sextets 25, 51, 61, 62, 63. -/
theorem test_sextets :
    [Instr.b64Upper 0x5A, .b64Lower 0x7A, .b64Digit 0x39, .b64Plus, .b64Slash].map
      (fun i => nextField (exec i (tinyIdle .text .refresh)) (fun t => (t.dec.acc, t.dec.k))) =
    [some (25, 1), some (51, 1), some (61, 1), some (62, 1), some (63, 1)] := by decide

/-- The worked example of R251: `++++` gives `FB EF BE`. -/
theorem test_b64Plus_group :
    nextField (exec .decText (placeRecord [0x2B, 0x2B, 0x2B, 0x2B] (tinyIdle .text .refresh)))
      (fun t => (t.fb, t.dec.status)) = some ([(0, 0xFB), (1, 0xEF), (2, 0xBE)], .failed .length) := by decide

/-- R253 and R254: a pad and a space change nothing. -/
theorem test_b64_skips :
    nextField (exec .b64Pad (midDecode .text [0x3D] 0 0)) (fun t => (t.dec.acc, t.dec.k, t.dec.o)) = some (0, 0, 0) ∧
    nextField (exec (.b64Invalid 0x20) (midDecode .text [0x20] 0 0)) (fun t => (t.dec.acc, t.dec.k, t.dec.o)) =
      some (0, 0, 0) := by decide

/-- V-T14: `wg` as a last group of two gives the one byte `C2`. -/
theorem test_decText_partial :
    nextField (exec .decText (placeRecord [0x77, 0x67] (tinyIdle .text .refresh))) (fun t => t.fb) =
    some [(0, 0xC2)] := by decide

/-! ## Raw fast path and acknowledge bytes -/

/-- The worked example of R260, through the link: `00` after a lone `FF`. -/
theorem test_textSent1 :
    nextField (step { placeRecord [0xFF] (tinyIdle .text .receive) with sched := [.rx], link := [0x00] })
      (fun t => (t.rxLen, t.rawRemaining, t.rawOffset, t.hfNew)) = some (0, 8, 0, false) := by decide

/-- V-R3: `LF` is payload while the raw path is active, here its first byte. -/
theorem test_rawData_lf :
    nextField (step { tinyIdle .text .receive with sched := [.rx], link := [0x0A], rawRemaining := 8 })
      (fun t => (t.fb, t.rawRemaining, t.rawOffset, t.trace)) = some ([(0, 0x0A)], 7, 1, [.linkIn 0x0A]) := by decide

/-- The forced state of 95_test_vectors.md §5: `raw_remaining = 3`, `raw_offset = 7`. -/
theorem test_rawData_accounting :
    nextField (exec (.rawData 0x55) { tinyIdle .text .refresh with rawRemaining := 3, rawOffset := 7, hfNew := true })
      (fun t => (t.fb, t.rawRemaining + t.rawOffset + t.rxLen, t.hfNew, t.trace)) =
    some ([], 0, true, [.fail .accounting, .linkOut 0x45]) := by decide

/-- R108. -/
theorem test_acks :
    nextField (exec .ackK (tinyIdle .text .receive)) (fun t => t.trace) = some [.linkOut 0x4B] ∧
    nextField (exec .ackE (tinyIdle .text .receive)) (fun t => t.trace) = some [.linkOut 0x45] := by decide

/-! ## Encoder -/

/-- The worked example of R140. -/
theorem test_encStart :
    nextField (exec .encStart { tinyIdle .cobs .receive with encR := 1, encX := 1 })
      (fun t => (t.encActive, t.encR, t.encX)) = some (true, 0, 0) := by decide

/-- The frame `F_A` of 95_test_vectors.md §2 in the frame buffer. -/
def frameA : State :=
  { tinyIdle .cobs .receive with
    fb := [(0, 0xFF), (1, 0xFF), (2, 0x00), (3, 0xF8), (4, 0x00), (5, 0x00), (6, 0x1F), (7, 0x00)], encActive := true }

/-- The worked example of R141 (V-E2): the pair at `x = 1`. -/
theorem test_encPair :
    nextField (exec .encPair { frameA with encX := 1 }) (fun t => (t.bps, t.encR, t.encX)) =
    some ([(1, 0x00), (3, 0x21), (5, 0x21), (7, 0x21), (9, 0x21), (11, 0x21)], 1, 0) := by decide

/-- 95_test_vectors.md §2: a table with `GAMMA[248] = 0xFF` and `GAMMA[252] = 0x80` gives 63 and 32. -/
theorem test_quantise_other_table :
    quant5 ⟨⟨(List.range 256).map (fun i => if i = 248 then 0xFF else 0x80)⟩, by simp⟩ 31 = 63 ∧
    quant6 ⟨⟨(List.range 256).map (fun i => if i = 252 then 0x80 else 0xFF)⟩, by simp⟩ 63 = 32 := by decide

/-- 95_test_vectors.md §2: `P = 0x0807` is `R5 = 1`, `G6 = 0`, `B5 = 7`. -/
theorem test_fields : (red5 0x0807, green6 0x0807, blue5 0x0807) = (1, 0, 7) := by decide

/-- R142 in both placements. -/
theorem test_encEnd :
    nextField (exec .encEnd { frameA with rxPhase := .encode }) (fun t => (t.encActive, t.rxPhase)) =
      some (false, .accept) ∧
    nextField (exec .encEnd { tinyIdle .cobs .refresh with sdPhase := .enc, encActive := true })
      (fun t => (t.encActive, t.sdPhase)) = some (false, .blank) := by decide

/-! ## Scan driver and handoff: the worked examples of R161 to R169, `W = 2`, `H = 4` -/

theorem test_sdBlank :
    nextField (exec .sdBlank (scanState .blank 0 0)) (fun t => (t.oeLevel, t.sdCol, t.sdPhase, t.trace)) =
    some (.disabled, 1, .shift, [.oe .disabled]) := by decide

/-- At `(2, 1)` column 1 is `BPS[17]`. -/
theorem test_sdShift :
    nextField (exec .sdShift { scanState .shift 2 1 with sdCol := 1, bps := [(16, 0x10), (17, 0x11)] })
      (fun t => (t.trace, t.sdCol, t.sdPhase)) = some ([.shift 0x11], 0, .shift) := by decide

/-- V-S2: the shifter is not ready. -/
theorem test_sdShift_holds :
    nextField (exec .sdShift { scanState .shift 0 0 with shifterReady := false }) (fun t => (t.trace, t.sdPhase)) =
    some ([], .shift) := by decide

theorem test_sdAddr :
    nextField (exec .sdAddr (scanState .addr 0 1)) (fun t => (t.addrValue, t.trace, t.sdPhase)) =
    some (1, [.addr 1], .latOn) := by decide
theorem test_sdLatOn :
    nextField (exec .sdLatOn (scanState .latOn 0 0)) (fun t => (t.latLevel, t.sdPhase)) = some (.asserted, .latOff) := by
  decide
theorem test_sdLatOff :
    nextField (exec .sdLatOff (scanState .latOff 0 0)) (fun t => (t.latLevel, t.sdPhase)) =
    some (.deasserted, .enable) := by decide
theorem test_sdEnable :
    nextField (exec .sdEnable (scanState .enable 0 0)) (fun t => (t.oeLevel, t.sdPhase)) = some (.enabled, .hold) := by
  decide
theorem test_sdHold :
    nextField (exec .sdHold (scanState .hold 3 0)) (fun t => (t.trace, t.sdPhase)) = some ([.hold 8], .blankEnd) := by
  decide
theorem test_sdBlankEnd_wraps :
    nextField (exec .sdBlankEnd (scanState .blankEnd 5 1)) (fun t => (t.oeLevel, t.sdBit, t.sdRow, t.sdPhase)) =
    some (.disabled, 0, 0, .blank) := by decide

/-- R169: a frame is taken and a pass starts; without one the next cycle starts. -/
theorem test_sdTake :
    nextField (exec .sdTake { tinyIdle .text .refresh with sdPhase := .take, hfNew := true })
      (fun t => (t.hfNew, t.encActive, t.sdPhase)) = some (false, true, .enc) ∧
    nextField (exec .sdTake { tinyIdle .text .refresh with sdPhase := .take })
      (fun t => (t.hfNew, t.encActive, t.sdPhase)) = some (false, false, .blank) := by decide

/-- V-H2 and V-H3. -/
theorem test_handoff :
    nextField (exec .hfPublish { tinyIdle .cobs .refresh with hfNew := true }) (fun t => t.hfNew) = some true ∧
    nextField (exec .hfTake (tinyIdle .cobs .refresh)) (fun t => (t.taken, t.hfNew)) = some (false, false) := by decide

/-- V-S5: after `BPS[3] = 21` is overwritten by `2C` inside a reader pass, both are candidates. -/
theorem test_torn_candidates :
    nextField (writeByte { tinyIdle .cobs .receive with bps := [(3, 0x21)] } .bps 3 0x2C) (fun t => candOf t 3) =
    some [some 0x21, some 0x2C] := by decide

/-! ## Refusal, hold, table words -/

theorem test_refuses_double :
    nextField (step { State.resetWith { Config.tiny .cobs .receive with buffering := .double } with sched := [.rx] })
      (fun t => t.rxLen) = none := by decide
theorem test_table_word_runs :
    nextField (step (State.reset.withFetchWord 8 0x4B)) (fun t => t.trace) =
    some [.linkIn 0x00, .publish, .linkOut 0x4B] := by decide
theorem test_table_word_plus_runs :
    nextField (step (State.reset.withFetchWord 8 0x2B)) (fun t => (t.rxLen, t.trace)) =
    some (0, [.linkIn 0x0A, .fail .length, .linkOut 0x45]) := by decide

/-! ## Witnesses: a concrete state and operands that meet the hypotheses of each statement, one for each clause -/

/-- DecodeOfEncode; EncodeOfDecode. -/
theorem test_witness_encoding :
    (Instr.cobsCode 0xFE).wf = true ∧ formatOf (.cobsCode 0xFE) = some .code ∧
    decode .code (0xFE :: [0x01]) = .ok (.cobsCode 0xFE, [0x01]) := ⟨by decide, rfl, rfl⟩

/-- StepRunsDecodedLinkByte, all three clauses. -/
theorem test_witness_link_step :
    (tinyIdle .text .receive).sched = [] ∧
    (let s : State := { tinyIdle .text .receive with sched := [.rx], link := [0x0A] }
     configOk s.cfg = true ∧ s.sched = .rx :: [] ∧ nextTurn s = (.rx, { s with sched := [] }) ∧ s.rxPhase = .accept ∧
       s.link = 0x0A :: [] ∧ decode (linkFormat s) (0x0A :: []) = .ok (.textLf, [])) :=
  ⟨rfl, by decide, rfl, rfl, rfl, rfl, rfl⟩

/-- StepRunsDecodedLinkByte, the format of a link byte after one stored byte (R261): after `0xFF` the byte `0x00` is
`TEXT.SENT1`, after another byte it is data, and while a payload is expected it is payload. -/
theorem test_witness_sentinel :
    (let s := placeRecord [0xFF] (tinyIdle .text .receive)
     s.cfg.framing = .text ∧ s.rxLen = 1 ∧ currentByte s .rxb 0 = 0xFF ∧ linkOp s 0x00 = .textSent1) ∧
    (let s := placeRecord [0x41] (tinyIdle .text .receive)
     s.cfg.framing = .text ∧ s.rxLen = 1 ∧ currentByte s .rxb 0 = 0x41 ∧ linkOp s 0x00 = .textData 0x00) ∧
    (let s : State := { placeRecord [0xFF] (tinyIdle .text .receive) with rawRemaining := 1 }
     linkOp s 0x00 = .rawData 0x00) ∧
    (tinyIdle .cobs .receive).cfg.framing = .cobs := by decide

/-- StepRunsSequencedOperation: each phase is met by the same state with that phase; here the two encoder positions. -/
theorem test_witness_sequencer :
    (let s : State := { tinyIdle .text .refresh with sched := [.rf], sdPhase := .enc, encActive := true }
     nextTurn s = (.rf, { s with sched := [] }) ∧ s.cfg.encPlace = .refresh ∧ s.encActive = true ∧ s.encR < rows s.cfg) ∧
    (let s : State := { tinyIdle .text .refresh with sched := [.rf], sdPhase := .enc, encActive := true, encR := 1 }
     nextTurn s = (.rf, { s with sched := [] }) ∧ s.encR = rows s.cfg) ∧
    (let s : State := { tinyIdle .text .receive with sched := [.rx], rxPhase := .encode, encActive := true }
     nextTurn s = (.rx, { s with sched := [] }) ∧ s.cfg.encPlace = .receive ∧ s.encR < rows s.cfg) ∧
    (let s : State := { tinyIdle .text .refresh with sched := [.rf], sdPhase := .take }
     nextTurn s = (.rf, { s with sched := [] }) ∧ configOk s.cfg = true) :=
  ⟨⟨rfl, rfl, rfl, by decide⟩, ⟨rfl, by decide⟩, ⟨rfl, rfl, by decide⟩, ⟨rfl, by decide⟩⟩

/-- ReceiverHoldsWithoutByte and EnvironmentMovesOnly. -/
theorem test_witness_hold_and_environment :
    (let s : State := { tinyIdle .cobs .receive with sched := [.rx] }
     configOk s.cfg = true ∧ s.sched = .rx :: [] ∧ s.rxPhase = .accept ∧ s.link = []) ∧
    (let s : State := { tinyIdle .cobs .receive with sched := [.env (.offer 0x42)] }
     s.sched = .env (.offer 0x42) :: []) ∧
    (let s : State := { tinyIdle .cobs .receive with sched := [.env (.shifter false)] }
     s.sched = .env (.shifter false) :: []) := by decide

/-- The statements about every step: one that answers a next state. -/
theorem test_witness_step :
    nextField (step { tinyIdle .cobs .receive with sched := [.rf] }) (fun t => t.sdPhase) = some .shift ∧
    nextField (rfStep (tinyIdle .cobs .receive)) (fun t => t.sdPhase) = some .shift ∧
    nextField (rxStep { tinyIdle .cobs .refresh with link := [0x42] }) (fun t => t.rxLen) = some 1 := by decide

/-- CobsDataStoresOrOverflows and TextDataStoresOrOverflows at the boundary: room for one more byte, and none. -/
theorem test_witness_store :
    (let s : State := { tinyIdle .cobs .receive with rxLen := 15 }; s.rxLen < s.cfg.rxcap) ∧
    (let s : State := { tinyIdle .cobs .receive with rxLen := 16 }; s.rxLen = s.cfg.rxcap ∧ s.cfg.framing = .cobs) ∧
    (let s : State := { tinyIdle .text .receive with rxLen := 16 }; s.rxLen = s.cfg.rxcap ∧ s.cfg.framing = .text) := by
  decide

/-- CobsDecodeCompletesInBounds, CobsTerminatorPublishesOnSuccess: success in both placements, and failure. -/
theorem test_witness_cobs_term :
    (let s := placeRecord (List.replicate 9 0x01) (tinyIdle .cobs .receive)
     s.rxLen ≤ s.cfg.rxcap ∧ nextField (exec .decCobs s) (fun d => d.dec.status) = some .ok) ∧
    (let s := placeRecord (List.replicate 9 0x01) (tinyIdle .cobs .refresh)
     s.rxLen ≤ s.cfg.rxcap ∧ nextField (exec .decCobs s) (fun d => d.dec.status) = some .ok) ∧
    nextField (exec .decCobs (tinyIdle .cobs .receive)) (fun d => d.dec.status) = some (.failed .length) := by decide

/-- TextDecodeCompletesInBounds, LineFeedAcknowledges. -/
theorem test_witness_text_lf :
    (let s := placeRecord (List.replicate 11 0x41) (tinyIdle .text .receive)
     s.rxLen ≤ s.cfg.rxcap ∧ nextField (exec .decText s) (fun d => d.dec.status) = some .ok) ∧
    (let s := placeRecord (List.replicate 11 0x41) (tinyIdle .text .refresh)
     nextField (exec .decText s) (fun d => d.dec.status) = some .ok) ∧
    nextField (exec .decText (tinyIdle .text .receive)) (fun d => d.dec.status) = some (.failed .length) := by decide

/-- TextDecodeCompletesInBounds for a record with each final group: one symbol gives nothing (`LENGTH`), three
give the last two of eight bytes, two give one byte more than fits (`OVERFLOW`) (R255). -/
theorem test_witness_partial_groups :
    (let r : List Byte := List.replicate 8 0x41 ++ [0x42]
     HoldsRecord (placeRecord r (tinyIdle .text .refresh)) r ∧ textPayload r = List.replicate 6 0x00) ∧
    (let r : List Byte := List.replicate 8 0x41 ++ [0x20, 0x42, 0x77, 0x67]
     HoldsRecord (placeRecord r (tinyIdle .text .refresh)) r ∧ textPayload r = List.replicate 6 0x00 ++ [0x07, 0x08]) ∧
    (let r : List Byte := List.replicate 12 0x41 ++ [0x42, 0x77]
     HoldsRecord (placeRecord r (tinyIdle .text .refresh)) r ∧ textPayload r = List.replicate 9 0x00 ++ [0x07]) := by
  decide

/-- CobsDecodeCompletesInBounds for a record of each kind: an empty one, one whose last block ends it, the truncated
one of V-C9, V-C13's that is too long, and one that is too long before its
truncated block. -/
theorem test_witness_cobs_records :
    (HoldsRecord (tinyIdle .cobs .refresh) [] ∧ cobsPayload [] = [] ∧ cobsFramed [] = true) ∧
    (let r : List Byte := [0x03, 0x11, 0x22, 0x01, 0x02, 0x33]
     HoldsRecord (placeRecord r (tinyIdle .cobs .refresh)) r ∧ cobsFramed r = true ∧
       cobsPayload r = [0x11, 0x22, 0x00, 0x00, 0x33]) ∧
    (let r : List Byte := [0x04, 0x05, 0x06, 0x07, 0x08]
     HoldsRecord (placeRecord r (tinyIdle .cobs .refresh)) r ∧ cobsFramed r = false ∧
       cobsPayload r = [0x05, 0x06, 0x07, 0x00]) ∧
    (let r : List Byte := List.replicate 16 0x01
     HoldsRecord (placeRecord r (tinyIdle .cobs .refresh)) r ∧ cobsFramed r = true ∧
       cobsPayload r = List.replicate 15 0x00) ∧
    (let r : List Byte := List.replicate 9 0x01 ++ [0x05]
     HoldsRecord (placeRecord r (tinyIdle .cobs .refresh)) r ∧ cobsFramed r = false ∧
       cobsPayload r = List.replicate 9 0x00) := by
  decide

/-- The same for a record that is one `0xFF` block: 254 literals and no zero (R214). -/
theorem test_witness_cobs_full_block (literals : List Byte) (h : literals.length = 254) :
    cobsPayload (0xFF :: literals) = literals ∧ cobsFramed (0xFF :: literals) = true := by
  simp [cobsPayload, cobsFramed, cobsBlocksOf, h, List.take_of_length_le, List.drop_of_length_le]

/-- ZeroCodeAndTruncatedBlockFailFraming: one literal short. -/
theorem test_witness_truncated :
    (let s := midDecode .cobs [0x03, 0x11] 1 0; s.dec.n < s.dec.i + ((0x03 : Byte).toNat - 1)) ∧
    (let s := midDecode .cobs [0xFF, 0x11] 1 0; s.dec.n < s.dec.i + 254) := by decide

/-- A configuration whose frame and receive buffer hold a `0xFF` block. -/
def wideState : State :=
  { State.resetWith { Config.tiny .cobs .refresh with width := 64, rxcap := 300 } with
    dec := { n := 255, i := 1, o := 2, acc := 0, k := 0, status := .running } }

/-- BlocksCopyTheirLiterals: a block inside the record that fills the frame, one that ends the record, a `0xFF` block. -/
theorem test_witness_blocks :
    (let s := midDecode .cobs [0x04, 0x05, 0x06, 0x07, 0x08] 1 4
     (Instr.cobsCode 0x04).wf = true ∧ decFailed s = false ∧ s.dec.n ≤ s.cfg.rxcap ∧
       s.dec.i + ((0x04 : Byte).toNat - 1) < s.dec.n ∧ s.dec.o + (0x04 : Byte).toNat ≤ frameBytes s.cfg) ∧
    (let s := midDecode .cobs [0x04, 0x05, 0x06, 0x07] 1 5
     s.dec.i + ((0x04 : Byte).toNat - 1) = s.dec.n ∧ s.dec.o + ((0x04 : Byte).toNat - 1) ≤ frameBytes s.cfg) ∧
    (decFailed wideState = false ∧ wideState.dec.n ≤ wideState.cfg.rxcap ∧ wideState.dec.i + 254 ≤ wideState.dec.n ∧
      wideState.dec.o + 254 ≤ frameBytes wideState.cfg) := by decide

/-- OversizedBlockFailsOverflow: one literal too many; a zero that does not fit after three literals, and after none
(V-C13's ninth code byte); a `0xFF` block one byte too long. -/
theorem test_witness_oversized_block :
    (let s := midDecode .cobs [0x04, 0x05, 0x06, 0x07] 1 6
     decFailed s = false ∧ s.dec.n ≤ s.cfg.rxcap ∧ s.dec.o ≤ frameBytes s.cfg ∧
       s.dec.i + ((0x04 : Byte).toNat - 1) ≤ s.dec.n ∧ frameBytes s.cfg < s.dec.o + ((0x04 : Byte).toNat - 1)) ∧
    (let s := midDecode .cobs [0x04, 0x05, 0x06, 0x07, 0x01] 1 5
     decFailed s = false ∧ s.dec.n ≤ s.cfg.rxcap ∧ s.dec.o ≤ frameBytes s.cfg ∧
       s.dec.i + ((0x04 : Byte).toNat - 1) < s.dec.n ∧ s.dec.o + ((0x04 : Byte).toNat - 1) = frameBytes s.cfg) ∧
    (let s := midDecode .cobs (List.replicate 16 0x01) 9 8
     decFailed s = false ∧ s.dec.n ≤ s.cfg.rxcap ∧ s.dec.o ≤ frameBytes s.cfg ∧
       s.dec.i + ((0x01 : Byte).toNat - 1) < s.dec.n ∧ s.dec.o + ((0x01 : Byte).toNat - 1) = frameBytes s.cfg) ∧
    (let s : State := { wideState with dec := { wideState.dec with o := 3 } }
     s.dec.i + 254 ≤ s.dec.n ∧ s.dec.o ≤ frameBytes s.cfg ∧ frameBytes s.cfg < s.dec.o + 254) := by decide

/-- CobsRoundTrip: the frame of V-C3. -/
theorem test_witness_cobs_round_trip :
    (let frame : List Byte := [0x11, 0x22, 0x00, 0x33, 0x44, 0x55, 0x66, 0x77]
     let s := placeRecord (cobsEncode [] frame) (tinyIdle .cobs .refresh)
     frame.length = frameBytes s.cfg ∧ HoldsRecord s (cobsEncode [] frame) ∧ s.rxLen ≤ s.cfg.rxcap ∧
       cobsEncode [] frame = [0x03, 0x11, 0x22, 0x06, 0x33, 0x44, 0x55, 0x66, 0x77]) := by decide

/-- TextRoundTrip: the frame of V-T1. -/
theorem test_witness_text_round_trip :
    (let frame : List Byte := [0x01, 0x02, 0x03, 0x04, 0x05, 0x06, 0x07, 0x08]
     let s := placeRecord (b64Encode frame) (tinyIdle .text .refresh)
     frame.length = frameBytes s.cfg ∧ HoldsRecord s (b64Encode frame) ∧ s.rxLen ≤ s.cfg.rxcap ∧
       b64Encode frame = [0x41, 0x51, 0x49, 0x44, 0x42, 0x41, 0x55, 0x47, 0x42, 0x77, 0x67, 0x3D]) := by decide

/-- SymbolsAccumulateSextets, FourthSymbolOutputsGroup and OversizedGroupFailsOverflow at their boundaries. -/
theorem test_witness_symbols :
    ((Instr.b64Lower 0x7A).wf = true ∧ sextetOf (.b64Lower 0x7A) = some 51 ∧
      (midDecode .text [0x7A] 0 0).dec.k + 1 ≠ 4) ∧
    (let m := midDecode .text [0x2B] 0 5
     let s : State := { m with dec := { m.dec with k := 3 } }
     Instr.b64Plus.wf = true ∧ sextetOf .b64Plus = some 62 ∧ s.dec.k = 3 ∧ decFailed s = false ∧
       s.dec.o + 3 ≤ frameBytes s.cfg) ∧
    (let m := midDecode .text [0x2B] 0 6
     let s : State := { m with dec := { m.dec with k := 3 } }
     s.dec.k = 3 ∧ decFailed s = false ∧ s.dec.o ≤ frameBytes s.cfg ∧ frameBytes s.cfg < s.dec.o + 3 ∧
       s.dec.o + 1 < frameBytes s.cfg) ∧
    (let m := midDecode .text [0x2B] 0 7
     let s : State := { m with dec := { m.dec with k := 3 } }
     s.dec.k = 3 ∧ decFailed s = false ∧ frameBytes s.cfg < s.dec.o + 3 ∧ s.dec.o < frameBytes s.cfg ∧
       ¬ s.dec.o + 1 < frameBytes s.cfg) ∧
    (let m := midDecode .text [0x2B] 0 8
     let s : State := { m with dec := { m.dec with k := 3 } }
     s.dec.k = 3 ∧ decFailed s = false ∧ s.dec.o ≤ frameBytes s.cfg ∧ frameBytes s.cfg < s.dec.o + 3 ∧
       ¬ s.dec.o < frameBytes s.cfg) := by decide

/-- RawByteIsWrittenInPlace, LastRawByteCompletes, BrokenAccountingResets. -/
theorem test_witness_raw :
    (let s : State := { tinyIdle .text .receive with rawRemaining := 2, rawOffset := 6 }
     s.rawOffset + s.rawRemaining = frameBytes s.cfg ∧ 1 < s.rawRemaining) ∧
    (let s : State := { tinyIdle .text .receive with rawRemaining := 1, rawOffset := 7 }
     s.rawOffset + s.rawRemaining = frameBytes s.cfg ∧ s.rawRemaining = 1) ∧
    (let s : State := { tinyIdle .text .refresh with rawRemaining := 1, rawOffset := 7 }
     s.rawOffset + s.rawRemaining = frameBytes s.cfg ∧ s.cfg.encPlace = .refresh) ∧
    (let s : State := { tinyIdle .text .refresh with rawRemaining := 3, rawOffset := 7 }
     ¬ (s.rawOffset < frameBytes s.cfg ∧ s.rawOffset + s.rawRemaining = frameBytes s.cfg)) := by decide

/-- BrightnessLaw: the table `GAMMA_ID` is non-decreasing. -/
theorem test_witness_gamma :
    ∀ i j : Byte, i.toNat ≤ j.toNat → (gammaAt Config.gammaId i).toNat ≤ (gammaAt Config.gammaId j).toNat := by
  intro i j h
  have e : ∀ k : Byte, gammaAt Config.gammaId k = k := by
    intro k
    simp [gammaAt, Config.gammaId]
  rw [e, e]; exact h

/-- Every set of a state with no listed set is a singleton. -/
theorem test_witness_sets_nonempty (s : State) (h : s.cand = []) : SetsNonempty s := by
  intro i; simp [candOf, h, candGet]

/-- EncodePairWritesPlanes in both placements, at the last column and before it. -/
theorem test_witness_encode_pair :
    (let s : State := { frameA with encX := 1 }
     s.encR < rows s.cfg ∧ s.encX < s.cfg.width ∧ s.cand = [] ∧ ¬ s.encX + 1 < s.cfg.width) ∧
    (let s : State := { tinyIdle .cobs .refresh with encActive := true }
     s.encR < rows s.cfg ∧ s.encX + 1 < s.cfg.width ∧ s.cand = []) := by decide

/-- `frameA` with the pass one pair on: its six bytes are those of V-E1, and `RX` is to move. -/
def frameAMidway : State :=
  { frameA with
    bps := [(0, 0x02), (2, 0x07), (4, 0x07), (6, 0x07), (8, 0x07), (10, 0x07)]
    encX := 1, rxPhase := .encode, sched := [.rx] }

/-- `frameA` with every pair encoded (V-E1, V-E2) and `ENC.END` to come. -/
def frameAEncoded : State :=
  { frameAMidway with
    bps := [(0, 0x02), (1, 0x00), (2, 0x07), (3, 0x21), (4, 0x07), (5, 0x21), (6, 0x07), (7, 0x21), (8, 0x07),
      (9, 0x21), (10, 0x07), (11, 0x21)]
    encX := 0, encR := 1 }

/-- EncodePassYieldsReference, the step in the middle of a pass: all its hypotheses. -/
theorem test_witness_pass_step :
    Inv frameAMidway ∧ PassEncodes frameAMidway ∧
    nextField (step frameAMidway) (fun t => (t.fb == frameAMidway.fb, t.bps == frameAEncoded.bps, t.encR)) =
      some (true, true, 1) := by
  refine ⟨?_, ?_, by decide⟩
  · constructor <;>
      simp [frameAMidway, frameA, tinyIdle, State.resetWith, Config.tiny, configOk, rxcapMin, frameBytes, bpsBytes, rows,
        depthBits, Memory.wf, Memory.below]
  · intro _
    refine ⟨.inl rfl, fun r b x hr hb hx hp => ?_⟩
    have hr0 : r < 1 := hr
    have hx0 : r < 0 ∨ (r = 0 ∧ x < 1) := hp
    obtain ⟨rfl, rfl⟩ : r = 0 ∧ x = 0 := by omega
    interval_cases b <;> exact ⟨_, rfl, by decide⟩

/-- EncodePassYieldsReference, the step that ends a pass: all its hypotheses. -/
theorem test_witness_pass_end :
    Inv frameAEncoded ∧ PassEncodes frameAEncoded ∧
    nextField (step frameAEncoded) (fun t => (t.fb == frameAEncoded.fb, t.encActive)) = some (true, false) := by
  refine ⟨?_, ?_, by decide⟩
  · constructor <;>
      simp [frameAEncoded, frameAMidway, frameA, tinyIdle, State.resetWith, Config.tiny, configOk, rxcapMin, frameBytes,
        bpsBytes, rows, depthBits, Memory.wf, Memory.below]
  · intro _
    refine ⟨.inl rfl, fun r b x hr hb hx hp => ?_⟩
    have hr0 : r < 1 := hr
    have hx0 : x < 2 := hx
    obtain rfl : r = 0 := by omega
    interval_cases b <;> interval_cases x <;> exact ⟨_, rfl, by decide⟩

/-- EncodePassYieldsReference, the run back to back, in both placements. -/
theorem test_witness_encode_pass :
    frameA.encR = 0 ∧ frameA.encX = 0 ∧ 1 ≤ frameA.cfg.width ∧ frameA.cfg.encPlace = .receive ∧
    (tinyIdle .cobs .refresh).cand = [] := by decide

/-- ShiftEmitsOnePlaneByte: the last and a middle column, and the hold. -/
theorem test_witness_shift :
    (let s : State := { scanState .shift 5 1 with sdCol := 1 }
     s.shifterReady = true ∧ s.sdBit < 6 ∧ s.sdRow < rows s.cfg ∧ s.sdCol < s.cfg.width ∧ s.cand = [] ∧ 0 < s.sdCol) ∧
    (scanState .shift 5 1).sdCol = 0 ∧
    ({ scanState .shift 5 1 with shifterReady := false } : State).shifterReady = false := by decide

/-- BlankDisablesOutput and BlankEndAdvancesCounters: each clause. -/
theorem test_witness_counters :
    (let s := scanState .blank 0 0; s.sdBit = 0 ∧ s.sdRow = 0 ∧ s.cfg.encPlace = .receive) ∧
    (let s := scanState .blank 0 1; ¬ (s.sdBit = 0 ∧ s.sdRow = 0 ∧ s.cfg.encPlace = .receive)) ∧
    (let s := scanState .blankEnd 4 0; s.sdRow + 1 < rows s.cfg) ∧
    (let s := scanState .blankEnd 4 1; ¬ s.sdRow + 1 < rows s.cfg ∧ s.sdBit + 1 < 6) ∧
    (let s := scanState .blankEnd 5 1; ¬ s.sdRow + 1 < rows s.cfg ∧ ¬ s.sdBit + 1 < 6) := by decide

/-- RefreshTakeStartsPass, both clauses. -/
theorem test_witness_take :
    (tinyIdle .text .refresh).cfg.encPlace = .refresh ∧ (tinyIdle .text .refresh).hfNew = false ∧
    ({ tinyIdle .text .refresh with hfNew := true } : State).hfNew = true := by decide

/-- IterationTrace. -/
theorem test_witness_iteration :
    (let s := scanState .blank 5 1
     s.sdPhase = .blank ∧ s.shifterReady = true ∧ s.sdBit < 6 ∧ s.sdRow < rows s.cfg ∧ 1 ≤ s.cfg.width ∧ s.cand = []) := by
  decide

/-- RefreshHoldsOnlyOnShifter and LatchDarkKeptByEveryStep. -/
theorem test_witness_scan_steps :
    (let s : State := { scanState .latOn 0 0 with oeLevel := .disabled, sched := [.rf] }
     LatchDark s ∧ nextField (step s) (fun t => t.sdPhase) = some .latOff ∧
       (s.sdPhase = .shift → s.shifterReady = true)) := by decide

/-- SharedReadDrawsACandidate and SharedWriteAddsItsValue: the last byte of the shared buffer. -/
theorem test_witness_shared_cell :
    (let s := tinyIdle .cobs .receive
     candOf s 11 ≠ [] ∧ 11 < bufLen s.cfg (sharedBuf s.cfg) ∧ Buf.fb ≠ sharedBuf s.cfg) ∧
    (let s := tinyIdle .cobs .refresh
     candOf s 7 ≠ [] ∧ 7 < bufLen s.cfg (sharedBuf s.cfg)) := by decide

/-- The sets after a write, as RawByteIsWrittenInPlace states them: a byte written over another has both in its
set, and a set that is listed is kept. (For `BPS`: test_torn_candidates.) -/
theorem test_witness_sets_of_frame :
    nextField (exec (.rawData 0x5A)
      { tinyIdle .text .refresh with
        rawRemaining := 7, rawOffset := 1, fb := [(1, 0x09)], cand := [(2, [none, some 0x06])] })
      (fun t => (candOf t 1, candOf t 2)) = some ([some 0x09, some 0x5A], [none, some 0x06]) := by decide

/-- PlaneBytesKeepReservedBitsClear, NoWriteOutsideABuffer. -/
theorem test_witness_planes :
    (∀ p ∈ frameA.bps, p.2.toNat < 64) ∧ bufLen frameA.cfg .fb ≤ 8 ∧
    nextField (step { frameA with sched := [.rx], rxPhase := .encode }) (fun t => t.bps.length) = some 6 := by decide

/-- The reset state of `TINY` meets the invariant, so InvariantKeptAndNeverStops and FailureLeavesDecoderIdle have a
state; the failure is that of `LF` on an empty record. -/
theorem test_witness_invariant (f : Framing) (p : EncPlace) (ts : List Turn) (l : List Byte) :
    Inv { tinyIdle f p with sched := ts, link := l } := by
  cases f <;> cases p <;> constructor <;> simp [tinyIdle, State.resetWith, Config.tiny, configOk, rxcapMin, frameBytes,
    rows, depthBits, Memory.wf]

theorem test_witness_failure :
    nextField (step { tinyIdle .text .refresh with sched := [.rx], link := [0x0A] }) (fun t => t.trace) =
    some [.linkIn 0x0A, .fail .length, .linkOut 0x45] := by decide

end Sys2Proof.Tests
end

section
/-! PROOFS. What R11 and R14 say of the configuration: `step` refuses exactly the ill-formed ones, and no step changes
it. Both come from one walk over the operations, stated with `EndsIn`. -/

namespace Sys2Proof.Machine

/-! ## What an answer can be -/

/-- The answer is no refusal, and its next state, if it has one, satisfies `P`. -/
def EndsIn (P : State → Prop) : Result → Prop
  | .next s => P s
  | .fault _ => True
  | .refused _ => False

@[simp] theorem endsIn_next {P : State → Prop} {s : State} : EndsIn P (.next s) ↔ P s := Iff.rfl
@[simp] theorem endsIn_fault {P : State → Prop} {f : Fault} : EndsIn P (.fault f) := trivial
@[simp] theorem not_endsIn_refused {P : State → Prop} {q : Refusal} : ¬ EndsIn P (.refused q) := id

theorem EndsIn.andThen {P Q : State → Prop} {r : Result} {k : State → Result} (hr : EndsIn Q r)
    (hk : ∀ t, Q t → EndsIn P (k t)) : EndsIn P (andThen r k) := by
  cases r with
  | next t => exact hk t hr
  | fault f => exact endsIn_fault
  | refused q => exact hr

/-- A guarded sequence may stop after its first part (R16), which must then satisfy `P` by itself. -/
theorem EndsIn.unlessFailed {P : State → Prop} {r : Result} {k : State → Result} (hr : EndsIn P r)
    (hk : ∀ t, P t → EndsIn P (k t)) : EndsIn P (unlessFailed r k) :=
  hr.andThen fun t ht => by
    split
    · exact ht
    · exact hk t ht

theorem endsIn_readThen {P : State → Prop} {s : State} {b : Buf} {i : Nat} {k : Byte → State → Result}
    (hk : ∀ v, EndsIn P (k v (afterRead s b i))) : EndsIn P (readThen s b i k) := by
  unfold readThen
  split
  · exact hk _
  · exact endsIn_fault

theorem endsIn_writeByte {P : State → Prop} {s : State} {b : Buf} {i : Nat} {v : Byte}
    (h : P (storeByte s b i v)) : EndsIn P (writeByte s b i v) := by
  unfold writeByte
  split
  · exact h
  · exact endsIn_fault

/-! ## The configuration under the updates of the state -/

@[simp] theorem afterRead_cfg (s : State) (b : Buf) (i : Nat) : (afterRead s b i).cfg = s.cfg := by
  rw [afterRead_eq]

@[simp] theorem nextTurn_cfg (s : State) : (nextTurn s).2.cfg = s.cfg := by
  unfold nextTurn; split <;> rfl

@[simp] theorem environmentMoves_cfg (m : EnvMove) (s : State) : (environmentMoves m s).cfg = s.cfg := by
  cases m <;> rfl

@[simp] theorem resetOverflow_cfg (s : State) : (resetOverflow s).cfg = s.cfg := by
  unfold resetOverflow; split <;> rfl

@[simp] theorem finishDecode_cfg (s : State) : (finishDecode s).cfg = s.cfg := by
  unfold finishDecode; split <;> rfl

@[simp] theorem startPass_cfg (s : State) : (startPass s).cfg = s.cfg := by
  unfold startPass; split <;> rfl

@[simp] theorem postPublish_cfg (s : State) : (postPublish s).cfg = s.cfg := by
  unfold postPublish
  split
  · rfl
  · split <;> simp

@[simp] theorem rawComplete_cfg (s : State) : (rawComplete s).cfg = s.cfg := by simp [rawComplete]

@[simp] theorem afterCobs_cfg (s : State) : (afterCobs s).cfg = s.cfg := by
  unfold afterCobs; split <;> simp

@[simp] theorem afterText_cfg (s : State) : (afterText s).cfg = s.cfg := by
  unfold afterText; split <;> simp

@[simp] theorem nextPair_cfg (s : State) : (nextPair s).cfg = s.cfg := by
  unfold nextPair; split <;> rfl

@[simp] theorem nextColumn_cfg (s : State) : (nextColumn s).cfg = s.cfg := by
  unfold nextColumn; split <;> rfl

@[simp] theorem nextIteration_cfg (s : State) : (nextIteration s).cfg = s.cfg := by
  unfold nextIteration
  split
  · rfl
  · split
    · rfl
    · split <;> rfl

/-! ## No operation refuses or changes the configuration -/

/-- The answer is no refusal, and its next state, if it has one, has configuration `c`. -/
abbrev KeepsConfig (c : Config) : Result → Prop := EndsIn fun s => s.cfg = c

section
variable {c : Config} {s : State}

theorem writeByte_keepsConfig {b : Buf} {i : Nat} {v : Byte} (h : s.cfg = c) : KeepsConfig c (writeByte s b i v) :=
  endsIn_writeByte (by simpa using h)

theorem storeOut_keepsConfig {v : Byte} (h : s.cfg = c) : KeepsConfig c (storeOut v s) :=
  (writeByte_keepsConfig h).andThen fun _ ht => ht

theorem outByte_keepsConfig {v : Byte} (h : s.cfg = c) : KeepsConfig c (outByte v s) := by
  unfold outByte
  split
  · exact h
  · exact storeOut_keepsConfig h

/-! ### Byte-stuffed framing -/

theorem copyLiterals_keepsConfig {n : Nat} (h : s.cfg = c) : KeepsConfig c (copyLiterals n s) := by
  induction n generalizing s with
  | zero => exact h
  | succ m ih =>
    unfold copyLiterals
    split
    · exact h
    · exact endsIn_readThen fun v => (storeOut_keepsConfig (by simpa using h)).andThen fun u hu => ih hu

theorem implicitZero_keepsConfig (h : s.cfg = c) : KeepsConfig c (implicitZero s) := by
  unfold implicitZero
  split
  · exact outByte_keepsConfig h
  · exact h

theorem execCobsCode_keepsConfig {d : Byte} (h : s.cfg = c) : KeepsConfig c (execCobsCode d s) := by
  unfold execCobsCode
  split
  · exact h
  · exact (copyLiterals_keepsConfig h).unlessFailed fun _ ht => implicitZero_keepsConfig ht

theorem execCobsCodeFF_keepsConfig (h : s.cfg = c) : KeepsConfig c (execCobsCodeFF s) := by
  unfold execCobsCodeFF
  split
  · exact h
  · exact copyLiterals_keepsConfig h

theorem runCode_keepsConfig {d : Byte} (h : s.cfg = c) : KeepsConfig c (runCode d s) := by
  unfold runCode
  split
  · exact h
  · split
    · exact execCobsCodeFF_keepsConfig h
    · exact execCobsCode_keepsConfig h

theorem cobsBlocks_keepsConfig {fuel : Nat} (h : s.cfg = c) : KeepsConfig c (cobsBlocks fuel s) := by
  induction fuel generalizing s with
  | zero => exact h
  | succ f ih =>
    unfold cobsBlocks
    split
    · exact endsIn_readThen fun v => (runCode_keepsConfig (by simpa using h)).unlessFailed fun t ht => ih ht
    · exact h

theorem execDecCobs_keepsConfig (h : s.cfg = c) : KeepsConfig c (execDecCobs s) :=
  (cobsBlocks_keepsConfig (by simpa using h)).unlessFailed fun t ht => by simpa using ht

theorem execCobsTerm_keepsConfig (h : s.cfg = c) : KeepsConfig c (execCobsTerm s) :=
  (execDecCobs_keepsConfig h).andThen fun t ht => by simpa using ht

theorem storeRecord_keepsConfig {d : Byte} (h : s.cfg = c) : KeepsConfig c (storeRecord d s) :=
  (writeByte_keepsConfig h).andThen fun _ ht => ht

theorem execCobsData_keepsConfig {d : Byte} (h : s.cfg = c) : KeepsConfig c (execCobsData d s) := by
  unfold execCobsData
  split
  · exact storeRecord_keepsConfig h
  · simpa using h

/-! ### Text framing and the raw fast path -/

theorem outGroup_keepsConfig (h : s.cfg = c) : KeepsConfig c (outGroup s) :=
  (outByte_keepsConfig h).unlessFailed fun _ ht =>
    (outByte_keepsConfig ht).unlessFailed fun _ hu =>
      (outByte_keepsConfig hu).unlessFailed fun _ hw => hw

theorem acceptSextet_keepsConfig {v : BitVec 6} (h : s.cfg = c) : KeepsConfig c (acceptSextet v s) := by
  unfold acceptSextet
  split
  · exact outGroup_keepsConfig h
  · exact h

theorem runSym_keepsConfig {d : Byte} (h : s.cfg = c) : KeepsConfig c (runSym d s) := by
  unfold runSym
  iterate 5
    split
    · exact acceptSextet_keepsConfig h
  split <;> exact h

theorem textSymbols_keepsConfig {m : Nat} (h : s.cfg = c) : KeepsConfig c (textSymbols m s) := by
  induction m generalizing s with
  | zero => exact h
  | succ r ih => exact endsIn_readThen fun v => (runSym_keepsConfig (by simpa using h)).unlessFailed fun t ht => ih ht

theorem flushGroup_keepsConfig (h : s.cfg = c) : KeepsConfig c (flushGroup s) := by
  unfold flushGroup
  split
  · exact outByte_keepsConfig h
  · split
    · exact (outByte_keepsConfig h).unlessFailed fun _ ht => outByte_keepsConfig ht
    · exact h

theorem execDecText_keepsConfig (h : s.cfg = c) : KeepsConfig c (execDecText s) :=
  (textSymbols_keepsConfig (by simpa using h)).unlessFailed fun _ ht =>
    (flushGroup_keepsConfig ht).unlessFailed fun u hu => by simpa using hu

theorem execTextLf_keepsConfig (h : s.cfg = c) : KeepsConfig c (execTextLf s) :=
  (execDecText_keepsConfig h).andThen fun t ht => by simpa using ht

theorem execRawData_keepsConfig {d : Byte} (h : s.cfg = c) : KeepsConfig c (execRawData d s) := by
  unfold execRawData
  split
  · refine (writeByte_keepsConfig h).andThen fun t ht => ?_
    split
    · simpa using ht
    · exact ht
  · exact h

/-! ### Encode pass -/

theorem readPixelThen_keepsConfig {x y : Nat} {k : Pixel → State → Result} (h : s.cfg = c)
    (hk : ∀ p t, t.cfg = c → KeepsConfig c (k p t)) : KeepsConfig c (readPixelThen s x y k) :=
  endsIn_readThen fun _ => endsIn_readThen fun _ => hk _ _ (by simpa using h)

theorem writePlanes_keepsConfig {bits : List Nat} {r x : Nat} {qs : List (BitVec 6)} (h : s.cfg = c) :
    KeepsConfig c (writePlanes bits r x qs s) := by
  induction bits generalizing s with
  | nil => exact h
  | cons b rest ih => exact (writeByte_keepsConfig h).andThen fun _ ht => ih ht

theorem execEncPair_keepsConfig (h : s.cfg = c) : KeepsConfig c (execEncPair s) :=
  readPixelThen_keepsConfig h fun _ _ ht => readPixelThen_keepsConfig ht fun _ _ hw =>
    (writePlanes_keepsConfig hw).andThen fun z hz => by simpa using hz

theorem execEncEnd_keepsConfig (h : s.cfg = c) : KeepsConfig c (execEncEnd s) := by
  unfold execEncEnd
  split <;> exact h

/-! ### Scan driver -/

theorem execSdBlank_keepsConfig (h : s.cfg = c) : KeepsConfig c (execSdBlank s) := by
  unfold execSdBlank
  split <;> exact h

theorem execSdShift_keepsConfig (h : s.cfg = c) : KeepsConfig c (execSdShift s) := by
  unfold execSdShift
  split
  · exact endsIn_readThen fun v => by simpa using h
  · exact h

theorem execSdTake_keepsConfig (h : s.cfg = c) : KeepsConfig c (execSdTake s) := by
  unfold execSdTake
  split
  · simpa using h
  · exact h

/-! ### Every operation, every turn -/

theorem exec_keepsConfig (i : Instr) (h : s.cfg = c) : KeepsConfig c (exec i s) := by
  cases i with
  | cobsTerm => exact execCobsTerm_keepsConfig h
  | decCobs => exact execDecCobs_keepsConfig h
  | textLf => exact execTextLf_keepsConfig h
  | decText => exact execDecText_keepsConfig h
  | cobsData d | textData d => exact execCobsData_keepsConfig h
  | rawData d => exact execRawData_keepsConfig h
  | cobsCode d => exact execCobsCode_keepsConfig h
  | cobsCodeFF => exact execCobsCodeFF_keepsConfig h
  | b64Upper | b64Lower | b64Digit | b64Plus | b64Slash => exact acceptSextet_keepsConfig h
  | encStart => simpa [exec, execEncStart] using h
  | encPair => exact execEncPair_keepsConfig h
  | encEnd => exact execEncEnd_keepsConfig h
  | sdBlank => exact execSdBlank_keepsConfig h
  | sdShift => exact execSdShift_keepsConfig h
  | sdBlankEnd => simpa [exec, execSdBlankEnd] using h
  | sdTake => exact execSdTake_keepsConfig h
  | textCr | textSent1 | cobsCode0 | b64Pad | b64Invalid | ackK | ackE | sdAddr | sdLatOn | sdLatOff | sdEnable
  | sdHold | hfPublish | hfTake => exact h

theorem runOp_keepsConfig (o : Option Instr) (h : s.cfg = c) : KeepsConfig c (runOp o s) := by
  cases o with
  | none => exact endsIn_fault
  | some i => exact exec_keepsConfig i h

theorem rxStep_keepsConfig (h : s.cfg = c) : KeepsConfig c (rxStep s) := by
  unfold rxStep
  split
  · exact runOp_keepsConfig _ h
  · split
    · exact h
    · exact exec_keepsConfig _ (by simpa using h)

theorem turnStep_keepsConfig (t : Turn) (h : s.cfg = c) : KeepsConfig c (turnStep t s) := by
  cases t with
  | rx => exact rxStep_keepsConfig h
  | rf => exact runOp_keepsConfig _ h
  | env m => simpa [turnStep] using h

end

/-! ## The step and the configuration -/

theorem step_of_configOk {s : State} (h : configOk s.cfg = true) :
    step s = turnStep (nextTurn s).1 (nextTurn s).2 := if_pos h

theorem step_of_not_configOk {s : State} (h : ¬ configOk s.cfg = true) : step s = .refused .illFormedConfig :=
  if_neg h

/-- With an accepted configuration a step is no refusal and keeps the configuration. -/
theorem step_keepsConfig {s : State} (h : configOk s.cfg = true) : KeepsConfig s.cfg (step s) := by
  rw [step_of_configOk h]
  exact turnStep_keepsConfig _ (nextTurn_cfg s)

theorem step_eq_refused_iff {s : State} {q : Refusal} :
    step s = .refused q ↔ q = .illFormedConfig ∧ ¬ configOk s.cfg = true := by
  by_cases h : configOk s.cfg = true
  · have hstep := step_keepsConfig h
    constructor
    · intro hq
      rw [hq] at hstep
      exact absurd hstep not_endsIn_refused
    · rintro ⟨-, hn⟩
      exact absurd h hn
  · simp [step_of_not_configOk h, h, eq_comm]

/-- The least receive capacity in each framing (R12, R206). -/
theorem rxcapMin_le_iff (c : Config) : rxcapMin c ≤ c.rxcap ↔
    (c.framing = .cobs → c.width * c.height * 2 + c.width * c.height * 2 / 254 + 1 ≤ c.rxcap) ∧
    (c.framing = .text → 4 * ((c.width * c.height * 2 + 2) / 3) ≤ c.rxcap) := by
  cases h : c.framing <;> simp [rxcapMin, frameBytes, h]

/-- The acceptance check as R14's conditions, with the sizes of R12 written out. -/
theorem configOk_iff (c : Config) : configOk c = true ↔
    1 ≤ c.width ∧ 2 ≤ c.height ∧ c.height % 2 = 0 ∧ c.depth = 6 ∧ c.buffering = .single ∧
      c.height / 2 ≤ 2 ^ c.addrBits ∧ 0 < c.tUnit ∧ 0 < c.tLatch ∧
      (c.framing = .cobs → c.width * c.height * 2 + c.width * c.height * 2 / 254 + 1 ≤ c.rxcap) ∧
      (c.framing = .text → 4 * ((c.width * c.height * 2 + 2) / 3) ≤ c.rxcap) := by
  simp only [configOk, Bool.and_eq_true, decide_eq_true_eq, rxcapMin_le_iff]
  simp only [rows, depthBits]
  tauto

/-- Settles O9: no operation answers a refusal, so `step` refuses only where it checks the configuration. -/
theorem refusesExactlyIllFormedConfigurations : Obligations.RefusesExactlyIllFormedConfigurations := by
  intro s q
  rw [← configOk_iff]
  exact step_eq_refused_iff

/-- Settles O10, from the walk over the operations; an ill-formed configuration has no next state. -/
theorem configurationNeverChanges : Obligations.ConfigurationNeverChanges := by
  intro s t h
  by_cases hc : configOk s.cfg = true
  · have hstep := step_keepsConfig hc
    rwa [h] at hstep
  · rw [step_of_not_configOk hc] at h
    cases h

end Sys2Proof.Machine
end

section
/-! PROOFS. The state at rest and under the environment: the values after reset, the invariant there, and the two moves
of the environment. -/

namespace Sys2Proof.Machine

/-! ## Candidate sets that are not listed -/

/-- An index with no listed set has the singleton of its current byte (R38). -/
theorem candOf_of_unlisted {s : State} {i : Nat} (h : candGet s.cand i = none) :
    candOf s i = [memGet (bufOf s (sharedBuf s.cfg)) i] := by
  simp [candOf, h]

theorem candOf_of_listed {s : State} {i : Nat} {c : List (Option Byte)} (h : candGet s.cand i = some c) :
    candOf s i = c := by
  simp [candOf, h]

/-! ## Reset -/

@[simp] theorem bufOf_resetWith (c : Config) (b : Buf) : bufOf (State.resetWith c) b = [] := by
  cases b <;> rfl

@[simp] theorem candOf_resetWith (c : Config) (i : Nat) : candOf (State.resetWith c) i = [none] := by
  rw [candOf_of_unlisted rfl, bufOf_resetWith]
  rfl

/-- An accepted configuration has a row pair to scan (R12, R14). -/
theorem rows_pos_of_configOk {c : Config} (h : configOk c = true) : 0 < rows c := by
  have := (configOk_iff c).mp h
  unfold rows
  omega

theorem width_pos_of_configOk {c : Config} (h : configOk c = true) : 0 < c.width :=
  ((configOk_iff c).mp h).1

/-- The address lines can carry every row (R14). -/
theorem rows_le_of_configOk {c : Config} (h : configOk c = true) : rows c ≤ 2 ^ c.addrBits := by
  obtain ⟨-, -, -, -, -, haddr, -⟩ := (configOk_iff c).mp h
  exact haddr

/-- Settles O53: every field of the reset state is written out, and no byte and no set is listed there. -/
theorem resetValues : Obligations.ResetValues := by
  rintro c s rfl
  refine ⟨rfl, rfl, rfl, rfl, rfl, rfl, rfl, rfl, rfl, rfl, fun i => ?_, fun b i => ?_⟩
  · simp [memGet]
  · simp [memGet]

/-- Settles O54: the ranges hold because an accepted configuration has a row, the rest because reset lists nothing. -/
theorem invariantHoldsAtReset : Obligations.InvariantHoldsAtReset := by
  intro c h
  constructor
  case config_ok => exact h
  case sd_row_lt => exact rows_pos_of_configOk h
  all_goals simp [State.resetWith, depthBits, Memory.wf]

/-! ## The environment -/

theorem nextTurn_of_sched {s : State} {t : Turn} {rest : List Turn} (h : s.sched = t :: rest) :
    nextTurn s = (t, { s with sched := rest }) := by
  simp [nextTurn, h]

/-- Settles O8: the turn is the schedule's first, and the move is the environment's own. -/
theorem environmentMovesOnly : Obligations.EnvironmentMovesOnly := by
  intro s rest d r hc
  constructor <;> intro h <;> rw [step_of_configOk hc, nextTurn_of_sched h] <;> rfl

end Sys2Proof.Machine
end

section
/-! PROOFS. What a store does to the candidate sets (R72), and the raw fast path's bytes (R262, R263). -/

namespace Sys2Proof.Machine

/-! ## The shared buffer -/

theorem sharedBuf_of_receive {c : Config} (h : c.encPlace = .receive) : sharedBuf c = .bps := by
  simp [sharedBuf, h]

theorem sharedBuf_of_refresh {c : Config} (h : c.encPlace = .refresh) : sharedBuf c = .fb := by
  simp [sharedBuf, h]

/-! ## The sets after a store -/

/-- A store into the shared buffer adds its value to the set of its byte and leaves every other set (R72). -/
theorem candOf_storeByte_shared (s : State) (i : Nat) (v : Byte) (j : Nat) :
    candOf (storeByte s (sharedBuf s.cfg) i v) j =
      if j = i then candInsert (some v) (candOf s i) else candOf s j := by
  by_cases hsame : candInsert (some v) (candOf s i) = [some v] ∧ candGet s.cand i = none
  · obtain ⟨hinsert, hnone⟩ := hsame
    have hadd : candAdd s i v = s.cand := by simp [candAdd, hinsert, hnone]
    by_cases hj : j = i
    · subst hj
      rw [candOf_of_unlisted (by simp [hadd, hnone]), storeByte_cfg, memGet_storeByte]
      simp [hinsert]
    · simp [candOf, hadd, memGet_storeByte, hj]
  · have hadd : candAdd s i v = candPut s.cand i (candInsert (some v) (candOf s i)) := by simp [candAdd, hsame]
    by_cases hj : j = i
    · simp [candOf, hadd, candGet_candPut, hj]
    · simp [candOf, hadd, candGet_candPut, memGet_storeByte, hj]

theorem setsExtendedOn_storeByte (s : State) (i : Nat) (v : Byte) :
    SetsExtendedOn s (storeByte s (sharedBuf s.cfg) i v) (fun j => j = i) := by
  intro j m
  rw [candOf_storeByte_shared, memGet_storeByte]
  by_cases hj : j = i
  · simp [hj, mem_candInsert, or_comm]
  · simp [hj]

/-- A store into a buffer only one agent touches lists no set (R70). -/
theorem storeByte_cand_of_not_shared {s : State} {b : Buf} {i : Nat} {v : Byte} (h : b ≠ sharedBuf s.cfg) :
    (storeByte s b i v).cand = s.cand := by
  simp [h]

theorem setsAfterFrameWrites_storeByte (s : State) (i : Nat) (v : Byte) :
    SetsAfterFrameWrites s (storeByte s .fb i v) (fun j => j = i) := by
  constructor
  · intro h
    have hset := setsExtendedOn_storeByte s i v
    rwa [sharedBuf_of_refresh h] at hset
  · intro h
    exact storeByte_cand_of_not_shared (by simp [sharedBuf_of_receive h])

theorem setsAfterPlaneWrites_storeByte (s : State) (i : Nat) (v : Byte) :
    SetsAfterPlaneWrites s (storeByte s .bps i v) (fun j => j = i) := by
  constructor
  · intro h
    have hset := setsExtendedOn_storeByte s i v
    rwa [sharedBuf_of_receive h] at hset
  · intro h
    exact storeByte_cand_of_not_shared (by simp [sharedBuf_of_refresh h])

/-! ## Raw payload -/

/-- `RAW.DATA` with accounts that agree: the byte is stored and counted, and the last one completes (R262, R263). -/
theorem execRawData_of_agree {d : Byte} {s : State} (h : s.rawOffset + s.rawRemaining = frameBytes s.cfg)
    (hpos : 0 < s.rawRemaining) :
    execRawData d s = .next
      (if s.rawRemaining = 1 then rawComplete (rawAdvance (storeByte s .fb s.rawOffset d))
        else rawAdvance (storeByte s .fb s.rawOffset d)) := by
  have hlt : s.rawOffset < frameBytes s.cfg := by omega
  have hlast : s.rawRemaining - 1 = 0 ↔ s.rawRemaining = 1 := by omega
  rw [execRawData, if_pos (by simp [rawAccountsAgree, hlt, h]), writeByte_of_lt hlt, andThen_next]
  simp only [rawAdvance_rawRemaining, storeByte_rawRemaining, hlast]
  split <;> rfl

/-- Settles O28, from the store into `FB` and the two counters. -/
theorem rawByteIsWrittenInPlace : Obligations.RawByteIsWrittenInPlace := by
  intro s d h hmore
  refine ⟨rawAdvance (storeByte s .fb s.rawOffset d), ?_, rfl, memGet_memSet s.fb s.rawOffset d,
    setsAfterFrameWrites_storeByte s s.rawOffset d⟩
  exact (execRawData_of_agree h (by omega)).trans (by rw [if_neg (by omega)])

/-- `RAW_COMPLETE` with `REFRESH` leaves the frame published (R263, R284). -/
theorem rawComplete_of_refresh {s : State} (h : s.cfg.encPlace = .refresh) :
    rawComplete s =
      { s with rawOffset := 0, hfNew := true, trace := s.trace ++ [.publish, .linkOut ackOkByte] } := by
  rw [rawComplete, postPublish_refresh (by exact h)]
  simp [acknowledge, publish, emit]

/-- `RAW_COMPLETE` with `RECEIVE` takes the frame and starts the pass (R263, R284). -/
theorem rawComplete_of_receive {s : State} (h : s.cfg.encPlace = .receive) :
    rawComplete s =
      { s with
        rawOffset := 0, hfNew := false, taken := true, trace := s.trace ++ [.publish, .linkOut ackOkByte],
        encActive := true, encR := 0, encX := 0, rxPhase := .encode } := by
  rw [rawComplete, postPublish_receive (by exact h) rfl]
  simp [acknowledge, publish, emit]

/-- Settles O29: the store of the last byte, then `RAW_COMPLETE` in either placement. -/
theorem lastRawByteCompletes : Obligations.LastRawByteCompletes := by
  intro s d h hlast
  have hexec : exec (.rawData d) s = .next (rawComplete (rawAdvance (storeByte s .fb s.rawOffset d))) :=
    (execRawData_of_agree h (by omega)).trans (by rw [if_pos hlast])
  refine ⟨_, hexec, ?_⟩
  cases hp : s.cfg.encPlace with
  | refresh =>
    rw [rawComplete_of_refresh (by exact hp)]
    refine ⟨setsAfterFrameWrites_storeByte s s.rawOffset d, memGet_memSet s.fb s.rawOffset d, fun _ => ?_, nofun⟩
    simp [rawAdvance, storeByte, hlast, ackOkByte]
  | receive =>
    rw [rawComplete_of_receive (by exact hp)]
    refine ⟨setsAfterFrameWrites_storeByte s s.rawOffset d, memGet_memSet s.fb s.rawOffset d, nofun, fun _ => ?_⟩
    simp [rawAdvance, storeByte, hlast, ackOkByte, sharedBuf_of_receive hp]

end Sys2Proof.Machine
end

section
/-! PROOFS. `ENC.PAIR` (R141): two pixels read inside `FB`, six plane bytes written at distinct indices inside `BPS`. -/

namespace Sys2Proof.Machine

/-! ## Indices -/

/-- Both bytes of a pixel of the frame lie in `FB` (R61, R64). -/
theorem pixelIndex_in_frame {c : Config} {x y : Nat} (hx : x < c.width) (hy : y < c.height) :
    2 * pixelIndex c x y + 1 < frameBytes c := by
  have h := Nat.mul_add_lt_mul_of_lt_of_lt hy hx
  rw [Nat.mul_comm c.height, Nat.mul_comm c.width y] at h
  unfold pixelIndex frameBytes
  omega

/-- The plane bytes of a position of the pass lie in `BPS` (R62). -/
theorem bpi_lt {c : Config} {r b x : Nat} (hr : r < rows c) (hb : b < depthBits) (hx : x < c.width) :
    bpi c r b x < bpsBytes c := by
  have h := Nat.mul_add_lt_mul_of_lt_of_lt (Nat.mul_add_lt_mul_of_lt_of_lt hr hb) hx
  rwa [Nat.mul_comm c.width, Nat.mul_comm depthBits r] at h

theorem bpi_injective {c : Config} {r b b' x : Nat} (hx : x < c.width) (h : bpi c r b x = bpi c r b' x) : b = b' := by
  have hw : 0 < c.width := by omega
  have := Nat.eq_of_mul_eq_mul_right hw (Nat.add_right_cancel h)
  omega

/-! ## Plane bytes as numbers -/

theorem packBits_six (b0 b1 b2 b3 b4 b5 : Bool) :
    (packBits [b0, b1, b2, b3, b4, b5]).toNat =
      b0.toNat + b1.toNat * 2 + b2.toNat * 4 + b3.toNat * 8 + b4.toNat * 16 + b5.toNat * 32 := by
  revert b0 b1 b2 b3 b4 b5
  decide

/-- A plane byte is the sum of its six bits (R137). -/
theorem planeByte_subPixels (g : Vector Byte 256) (u l : Pixel) (b : Nat) :
    (planeByte (subPixels g u l) b).toNat = planeSum (subPixels g u l) b := by
  simp [planeByte, planeSum, subPixels, packBits_six, List.range_succ, Nat.add_assoc]

/-- Bits 7:6 of a plane byte are clear (R92). -/
theorem planeByte_subPixels_lt (g : Vector Byte 256) (u l : Pixel) (b : Nat) :
    (planeByte (subPixels g u l) b).toNat < 64 := by
  have bit_le := fun q : BitVec 6 => Bool.toNat_le (q.getLsbD b)
  simp only [planeByte, subPixels, List.map_cons, List.map_nil, packBits_six]
  have h0 := bit_le (quant5 g (red5 u))
  have h1 := bit_le (quant6 g (green6 u))
  have h2 := bit_le (quant5 g (blue5 u))
  have h3 := bit_le (quant5 g (red5 l))
  have h4 := bit_le (quant6 g (green6 l))
  have h5 := bit_le (quant5 g (blue5 l))
  omega

/-! ## Reading a pixel -/

/-- What a read returns is a value it may return (R71, R72). -/
theorem mayRead_readValue {s : State} {b : Buf} {i : Nat} (h : candOf s i ≠ []) :
    MayRead s b i (readValue s b i) := by
  by_cases hb : b = sharedBuf s.cfg
  · simpa [MayRead, readValue, hb] using ⟨_, candPick_mem _ s.tick h, rfl⟩
  · simp [MayRead, readValue, hb]

/-- A read of `FB` draws only where `FB` is shared (R71, R72). -/
theorem afterRead_fb_of_receive {s : State} {i : Nat} (h : s.cfg.encPlace = .receive) : afterRead s .fb i = s := by
  simp [afterRead, sharedBuf_of_receive h]

/-- A pixel inside the frame is read, with bytes the buffer allows; only the counter of draws can move. -/
theorem readPixelThen_of_lt {s : State} {x y : Nat} (k : Pixel → State → Result)
    (h : 2 * pixelIndex s.cfg x y + 1 < frameBytes s.cfg) (hsets : SetsNonempty s) :
    ∃ (u : State) (b0 b1 : Byte),
      readPixelThen s x y k = k (pixelOf s.cfg.pixelOrder b0 b1) u ∧ u = { s with tick := u.tick } ∧
      MayRead s .fb (2 * pixelIndex s.cfg x y) b0 ∧ MayRead s .fb (2 * pixelIndex s.cfg x y + 1) b1 ∧
      (s.cfg.encPlace = .receive → u.tick = s.tick) := by
  obtain ⟨n, ht⟩ : ∃ n, afterRead s .fb (2 * pixelIndex s.cfg x y) = { s with tick := n } := ⟨_, afterRead_eq ..⟩
  have hu := afterRead_eq { s with tick := n } .fb (2 * pixelIndex s.cfg x y + 1)
  refine ⟨afterRead { s with tick := n } .fb (2 * pixelIndex s.cfg x y + 1), readValue s .fb (2 * pixelIndex s.cfg x y),
    readValue { s with tick := n } .fb (2 * pixelIndex s.cfg x y + 1), ?_, hu, mayRead_readValue (hsets _),
    mayRead_readValue (s := { s with tick := n }) (hsets _), fun hp => ?_⟩
  · rw [readPixelThen, readThen_of_lt (show _ < frameBytes s.cfg by omega), ht, readThen_of_lt h, afterRead_cfg]
  · rw [afterRead_fb_of_receive (by exact hp), ← ht, afterRead_fb_of_receive hp]

/-! ## Writing the planes -/

/-- One set of writes after another, where the second leaves what the first wrote (R72). -/
theorem setsExtendedOn_trans {s t u : State} {w w' : Nat → Prop} (h : SetsExtendedOn s t w)
    (h' : SetsExtendedOn t u w') (hcfg : t.cfg = s.cfg)
    (hkeep : ∀ j, w j → memGet (bufOf u (sharedBuf s.cfg)) j = memGet (bufOf t (sharedBuf s.cfg)) j) :
    SetsExtendedOn s u (fun j => w j ∨ w' j) := by
  intro j m
  rw [h' j m, h j m, hcfg]
  by_cases hw : w j
  · rw [hkeep j hw]
    tauto
  · tauto

/-- The bytes of a pair's planes written for each bit of a list (R137, R141): at their indices, nowhere else, and the
sets grown by them. -/
structure PlanesWritten (r x : Nat) (qs : List (BitVec 6)) (bits : List Nat) (s t : State) : Prop where
  others : t = { s with bps := t.bps, cand := t.cand }
  written : ∀ b ∈ bits, memGet t.bps (bpi s.cfg r b x) = some (planeByte qs b)
  elsewhere : ∀ a, (∀ b ∈ bits, a ≠ bpi s.cfg r b x) → memGet t.bps a = memGet s.bps a
  sets : SetsAfterPlaneWrites s t (fun j => ∃ b ∈ bits, j = bpi s.cfg r b x)

/-- A plane byte written before the others of its pair, which go elsewhere. -/
theorem PlanesWritten.cons {r x b : Nat} {qs : List (BitVec 6)} {bits : List Nat} {s t : State} (hx : x < s.cfg.width)
    (hb : b ∉ bits) (h : PlanesWritten r x qs bits (storeByte s .bps (bpi s.cfg r b x) (planeByte qs b)) t) :
    PlanesWritten r x qs (b :: bits) s t := by
  have hkeep : memGet t.bps (bpi s.cfg r b x) = some (planeByte qs b) := by
    have hapart : ∀ b' ∈ bits, bpi s.cfg r b x ≠ bpi s.cfg r b' x := by
      intro b' hb' heq
      exact hb (by rwa [bpi_injective (b := b) hx heq])
    rw [h.elsewhere _ hapart, storeByte_bps, if_pos rfl, memGet_memSet, if_pos rfl]
  have hfirst := setsAfterPlaneWrites_storeByte s (bpi s.cfg r b x) (planeByte qs b)
  refine ⟨h.others, ?_, fun a ha => ?_, fun hp => ?_, fun hp => (h.sets.2 hp).trans (hfirst.2 hp)⟩
  · rintro b' (_ | ⟨_, hb'⟩)
    · exact hkeep
    · exact h.written b' hb'
  · obtain ⟨hne, hrest⟩ := List.forall_mem_cons.mp ha
    rw [h.elsewhere a hrest, storeByte_bps, if_pos rfl, memGet_memSet, if_neg hne]
  · have hall := setsExtendedOn_trans (hfirst.1 hp) (h.sets.1 hp) rfl (by
      rintro j rfl
      simpa [sharedBuf_of_receive hp, bufOf, memGet_memSet] using hkeep)
    simpa only [List.mem_cons, exists_eq_or_imp, storeByte_cfg] using hall

/-- The planes of a position of the pass are written (R141). -/
theorem writePlanes_completes {r x : Nat} (qs : List (BitVec 6)) {bits : List Nat} {s : State} (hr : r < rows s.cfg)
    (hx : x < s.cfg.width) (hbits : ∀ b ∈ bits, b < depthBits) (hnodup : bits.Nodup) :
    ∃ t, writePlanes bits r x qs s = .next t ∧ PlanesWritten r x qs bits s t := by
  induction bits generalizing s with
  | nil =>
    refine ⟨s, rfl, rfl, by simp, by simp, ?_, fun _ => rfl⟩
    simp [SetsExtendedOn]
  | cons b rest ih =>
    obtain ⟨hb, hrest⟩ := List.forall_mem_cons.mp hbits
    obtain ⟨hnotin, hnodup'⟩ := List.nodup_cons.mp hnodup
    obtain ⟨t, ht, hw⟩ := ih (s := storeByte s .bps (bpi s.cfg r b x) (planeByte qs b)) hr hx hrest hnodup'
    refine ⟨t, ?_, hw.cons hx hnotin⟩
    rw [writePlanes, writeByte_of_lt (bpi_lt hr hb hx), andThen_next, ht]

/-! ## The pair -/

/-- The position after a pair (R141). -/
theorem nextPair_eq (s : State) : nextPair s =
    { s with
      encX := if s.encX + 1 < s.cfg.width then s.encX + 1 else 0
      encR := if s.encX + 1 < s.cfg.width then s.encR else s.encR + 1 } := by
  unfold nextPair
  split <;> rfl

/-- Settles O38: the two pixels lie in `FB`, the six indices in `BPS` and apart. -/
theorem encodePairWritesPlanes : Obligations.EncodePairWritesPlanes := by
  intro s hr hx hsets
  have hheight : s.encR + rows s.cfg < s.cfg.height := by
    unfold rows at *
    omega
  obtain ⟨t, u0, u1, hu, ht, hu0, hu1, hn⟩ := readPixelThen_of_lt
    (fun u t => readPixelThen t t.encX (t.encR + rows t.cfg) fun l w =>
      andThen (writePlanes (List.range depthBits) w.encR w.encX (subPixels w.cfg.gamma u l) w)
        fun z => .next (nextPair z))
    (pixelIndex_in_frame (y := s.encR) hx (by omega)) hsets
  obtain ⟨n, rfl⟩ : ∃ n, t = { s with tick := n } := ⟨_, ht⟩
  obtain ⟨w, l0, l1, hl, hw, hl0, hl1, hn'⟩ := readPixelThen_of_lt (s := { s with tick := n })
    (fun l w => andThen (writePlanes (List.range depthBits) w.encR w.encX
        (subPixels w.cfg.gamma (pixelOf s.cfg.pixelOrder u0 u1) l) w) fun z => .next (nextPair z))
    (pixelIndex_in_frame hx hheight) hsets
  obtain ⟨n', rfl⟩ : ∃ n', w = { s with tick := n' } := ⟨_, hw⟩
  obtain ⟨z, hz, hplanes⟩ := writePlanes_completes (s := { s with tick := n' })
    (subPixels s.cfg.gamma (pixelOf s.cfg.pixelOrder u0 u1) (pixelOf s.cfg.pixelOrder l0 l1)) hr hx
    (fun b hb => List.mem_range.mp hb) List.nodup_range
  obtain ⟨planes, sets, rfl⟩ : ∃ m c, z = { s with tick := n', bps := m, cand := c } := ⟨_, _, hplanes.others⟩
  have hexec : exec .encPair s = .next (nextPair { s with tick := n', bps := planes, cand := sets }) :=
    hu.trans (hl.trans (congrArg (andThen · fun z => .next (nextPair z)) hz))
  rw [nextPair_eq] at hexec
  refine ⟨_, u0, u1, l0, l1, hexec, rfl, hu0, hu1, hl0, hl1, fun b hb => ?_, fun a ha => ?_, ?_, ?_, ?_, fun hp => ?_⟩
  · exact ⟨_, hplanes.written b (List.mem_range.mpr hb), planeByte_subPixels ..⟩
  · exact hplanes.elsewhere a fun b hb => ha b (List.mem_range.mp hb)
  · intro hlt
    exact ⟨if_pos hlt, if_pos hlt⟩
  · intro hge
    exact ⟨if_neg hge, if_neg hge⟩
  · have hgrown := hplanes.sets
    simp only [List.mem_range] at hgrown
    exact hgrown
  · exact (hn' hp).trans (hn hp)

end Sys2Proof.Machine
end

section
/-! PROOFS. Two walks over the operations, said once for every predicate that their elementary updates keep: a record
decode (R210, R243) and an encode pair (R141). With them, what a turn of one context leaves of the other (R49, R70). -/

namespace Sys2Proof.Machine

/-- A write answers inside the buffer only (R67). -/
theorem endsIn_writeByte_of_lt {P : State → Prop} {s : State} {b : Buf} {i : Nat} {v : Byte}
    (h : i < bufLen s.cfg b → P (storeByte s b i v)) : EndsIn P (writeByte s b i v) := by
  unfold writeByte
  split
  · exact h ‹_›
  · exact endsIn_fault

/-! ## What a record decode keeps -/

/-- A predicate that every elementary update of a record decode keeps: a byte stored inside `FB`, the decode's own
locals, a failure label. -/
structure DecodeClosed (P : State → Prop) : Prop where
  store : ∀ s i v, P s → i < frameBytes s.cfg → P (storeByte s .fb i v)
  locals : ∀ s l, P s → P { s with dec := l }
  label : ∀ s k, P s → P (emit (.fail k) s)

namespace DecodeClosed

variable {P : State → Prop} {s : State}

theorem raiseFail (hP : DecodeClosed P) {k : FailKind} (h : P s) : P (raiseFail k s) :=
  hP.label _ k (hP.locals _ _ h)

theorem storeOut (hP : DecodeClosed P) {v : Byte} (h : P s) : EndsIn P (storeOut v s) :=
  (endsIn_writeByte_of_lt fun hi => hP.store s _ v h hi).andThen fun t ht => hP.locals t _ ht

theorem outByte (hP : DecodeClosed P) {v : Byte} (h : P s) : EndsIn P (outByte v s) := by
  unfold Machine.outByte
  split
  · exact hP.raiseFail h
  · exact hP.storeOut h

theorem finishDecode (hP : DecodeClosed P) (h : P s) : P (finishDecode s) := by
  unfold Machine.finishDecode
  split
  · exact hP.locals _ _ h
  · exact hP.raiseFail h

theorem copyLiterals (hP : DecodeClosed P) {n : Nat} (h : P s) : EndsIn P (copyLiterals n s) := by
  induction n generalizing s with
  | zero => exact h
  | succ m ih =>
    unfold Machine.copyLiterals
    split
    · exact hP.raiseFail h
    · refine endsIn_readThen fun v => ?_
      rw [afterRead_rxb]
      exact (hP.storeOut h).andThen fun t ht => ih (hP.locals t _ ht)

theorem implicitZero (hP : DecodeClosed P) (h : P s) : EndsIn P (implicitZero s) := by
  unfold Machine.implicitZero
  split
  · exact hP.outByte h
  · exact h

theorem runCode (hP : DecodeClosed P) {c : Byte} (h : P s) : EndsIn P (runCode c s) := by
  unfold Machine.runCode execCobsCodeFF execCobsCode
  split
  · exact hP.raiseFail h
  · split <;> split
    · exact hP.raiseFail h
    · exact hP.copyLiterals h
    · exact hP.raiseFail h
    · exact (hP.copyLiterals h).unlessFailed fun t ht => hP.implicitZero ht

theorem cobsBlocks (hP : DecodeClosed P) {fuel : Nat} (h : P s) : EndsIn P (cobsBlocks fuel s) := by
  induction fuel generalizing s with
  | zero => exact h
  | succ f ih =>
    unfold Machine.cobsBlocks
    split
    · refine endsIn_readThen fun c => ?_
      rw [afterRead_rxb]
      exact (hP.runCode (hP.locals s _ h)).unlessFailed fun t ht => ih ht
    · exact h

theorem execDecCobs (hP : DecodeClosed P) (h : P s) : EndsIn P (execDecCobs s) :=
  (hP.cobsBlocks (hP.locals s _ h)).unlessFailed fun _ ht => hP.finishDecode ht

theorem outGroup (hP : DecodeClosed P) (h : P s) : EndsIn P (outGroup s) :=
  (hP.outByte h).unlessFailed fun _ ht =>
    (hP.outByte ht).unlessFailed fun _ hu =>
      (hP.outByte hu).unlessFailed fun w hw => hP.locals w _ hw

theorem acceptSextet (hP : DecodeClosed P) {v : BitVec 6} (h : P s) : EndsIn P (acceptSextet v s) := by
  unfold Machine.acceptSextet
  split
  · exact hP.outGroup (hP.locals s _ h)
  · exact hP.locals s _ h

theorem runSym (hP : DecodeClosed P) {d : Byte} (h : P s) : EndsIn P (runSym d s) := by
  unfold Machine.runSym
  iterate 5
    split
    · exact hP.acceptSextet h
  split <;> exact h

theorem textSymbols (hP : DecodeClosed P) {m : Nat} (h : P s) : EndsIn P (textSymbols m s) := by
  induction m generalizing s with
  | zero => exact h
  | succ r ih =>
    refine endsIn_readThen fun d => ?_
    rw [afterRead_rxb]
    exact (hP.runSym h).unlessFailed fun t ht => ih (hP.locals t _ ht)

theorem flushGroup (hP : DecodeClosed P) (h : P s) : EndsIn P (flushGroup s) := by
  unfold Machine.flushGroup
  split
  · exact hP.outByte h
  · split
    · exact (hP.outByte h).unlessFailed fun _ ht => hP.outByte ht
    · exact h

theorem execDecText (hP : DecodeClosed P) (h : P s) : EndsIn P (execDecText s) :=
  (hP.textSymbols (hP.locals s _ h)).unlessFailed fun _ ht =>
    (hP.flushGroup ht).unlessFailed fun _ hu => hP.finishDecode hu

end DecodeClosed

/-! ## What an encode pair keeps -/

/-- A predicate that every draw and every plane byte written by an encode pass keeps. -/
structure PassClosed (P : State → Prop) : Prop where
  draw : ∀ s n, P s → P { s with tick := n }
  store : ∀ s i v, P s → i < bpsBytes s.cfg → v.toNat < 64 → P (storeByte s .bps i v)

namespace PassClosed

variable {P : State → Prop} {s : State}

theorem afterRead (hP : PassClosed P) {b : Buf} {i : Nat} (h : P s) : P (afterRead s b i) := by
  rw [afterRead_eq]
  exact hP.draw s _ h

theorem readPixelThen (hP : PassClosed P) {Q : State → Prop} {x y : Nat} {k : Pixel → State → Result} (h : P s)
    (hk : ∀ p t, P t → EndsIn Q (k p t)) : EndsIn Q (readPixelThen s x y k) :=
  endsIn_readThen fun _ => endsIn_readThen fun _ => hk _ _ (hP.afterRead (hP.afterRead h))

theorem writePlanes (hP : PassClosed P) {bits : List Nat} {r x : Nat} {qs : List (BitVec 6)}
    (hqs : ∀ b, (planeByte qs b).toNat < 64) (h : P s) : EndsIn P (writePlanes bits r x qs s) := by
  induction bits generalizing s with
  | nil => exact h
  | cons b rest ih =>
    exact (endsIn_writeByte_of_lt fun hi => hP.store s _ _ h hi (hqs b)).andThen fun _ ht => ih ht

/-- A pair step ends where the position moves on from a state of the pass. -/
theorem execEncPair (hP : PassClosed P) {Q : State → Prop} (h : P s) (hnext : ∀ t, P t → Q (nextPair t)) :
    EndsIn Q (execEncPair s) :=
  hP.readPixelThen h fun _ _ ht => hP.readPixelThen ht fun _ _ hw =>
    (hP.writePlanes (planeByte_subPixels_lt _ _ _) hw).andThen fun z hz => hnext z hz

end PassClosed

/-- The encoder step of a sequencer is a pair or the end of the pass (R141, R142). -/
theorem endsIn_encoderOp {P : State → Prop} {s : State} (hpair : EndsIn P (execEncPair s))
    (hend : EndsIn P (execEncEnd s)) : EndsIn P (runOp (encoderOp s) s) := by
  unfold encoderOp
  split
  · exact hpair
  · split
    · exact hend
    · exact endsIn_fault

/-! ## A turn of `RF` and the receive context -/

/-- What a turn of `RF` leaves of the state before it (R49, R70). -/
abbrev KeepsReceiveSide (s t : State) : Prop :=
  SameReceiveSide s t ∧
    (s.cfg.encPlace = .receive →
      t.bps = s.bps ∧ t.hfNew = s.hfNew ∧ t.encActive = s.encActive ∧ t.encR = s.encR ∧ t.encX = s.encX)

theorem keepsReceiveSide_refl (s : State) : KeepsReceiveSide s s :=
  ⟨⟨rfl, rfl, rfl, rfl, rfl, rfl, rfl, rfl⟩, fun _ => ⟨rfl, rfl, rfl, rfl, rfl⟩⟩

theorem sameReceiveSide_passClosed (s : State) : PassClosed (SameReceiveSide s) :=
  ⟨fun _ _ h => h, fun _ _ _ h _ _ => h⟩

/-- The encoder in the refresh context touches nothing of the receive context (R70). -/
theorem encoderOp_keepsReceiveSide {s : State} (hp : s.cfg.encPlace = .refresh) :
    EndsIn (KeepsReceiveSide s) (runOp (encoderOp s) s) := by
  have notReceive : ¬ s.cfg.encPlace = .receive := by simp [hp]
  refine endsIn_encoderOp ?_ ?_
  · refine (sameReceiveSide_passClosed s).execEncPair (keepsReceiveSide_refl s).1 fun t ht => ?_
    rw [nextPair_eq]
    exact ⟨ht, fun h => absurd h notReceive⟩
  · unfold execEncEnd
    split
    · exact absurd ‹_› notReceive
    · exact ⟨(keepsReceiveSide_refl s).1, fun h => absurd h notReceive⟩

theorem execSdBlank_keepsReceiveSide (s : State) : EndsIn (KeepsReceiveSide s) (execSdBlank s) := by
  unfold execSdBlank
  split <;> exact keepsReceiveSide_refl s

theorem execSdShift_keepsReceiveSide (s : State) : EndsIn (KeepsReceiveSide s) (execSdShift s) := by
  unfold execSdShift
  split
  · refine endsIn_readThen fun v => ?_
    rw [afterRead_eq]
    unfold nextColumn
    split <;> exact keepsReceiveSide_refl s
  · exact keepsReceiveSide_refl s

theorem execSdBlankEnd_keepsReceiveSide (s : State) : EndsIn (KeepsReceiveSide s) (execSdBlankEnd s) := by
  unfold execSdBlankEnd nextIteration
  split
  · exact keepsReceiveSide_refl s
  · split
    · exact keepsReceiveSide_refl s
    · split <;> exact keepsReceiveSide_refl s

theorem execSdTake_keepsReceiveSide {s : State} (hp : s.cfg.encPlace = .refresh) :
    EndsIn (KeepsReceiveSide s) (execSdTake s) := by
  have notReceive : ¬ s.cfg.encPlace = .receive := by simp [hp]
  unfold execSdTake startPass
  split
  · split
    · exact absurd ‹_› notReceive
    · exact ⟨(keepsReceiveSide_refl s).1, fun h => absurd h notReceive⟩
  · exact ⟨(keepsReceiveSide_refl s).1, fun h => absurd h notReceive⟩

theorem rfStep_keepsReceiveSide (s : State) : EndsIn (KeepsReceiveSide s) (rfStep s) := by
  unfold rfStep scanOp
  split
  case h_1 => exact execSdBlank_keepsReceiveSide s
  case h_2 => exact execSdShift_keepsReceiveSide s
  case h_8 => exact execSdBlankEnd_keepsReceiveSide s
  case h_9 =>
    split
    · exact endsIn_fault
    · exact execSdTake_keepsReceiveSide ‹_›
  case h_10 =>
    split
    · exact endsIn_fault
    · exact encoderOp_keepsReceiveSide ‹_›
  all_goals exact keepsReceiveSide_refl s

/-- Settles O58, phase by phase; the encoder runs in `RF` only with `REFRESH`. -/
theorem refreshTurnLeavesReceiveSide : Obligations.RefreshTurnLeavesReceiveSide := by
  intro s t h
  have hends := rfStep_keepsReceiveSide s
  rwa [h] at hends

/-! ## The operations of a link byte -/

/-- The operation of a link byte, with what its class says of the state and the byte (R95, R96). -/
inductive LinkClass (s : State) (d : Byte) : Instr → Prop
  | cobsTerm : s.cfg.framing = .cobs → LinkClass s d .cobsTerm
  | cobsData : s.cfg.framing = .cobs → d ≠ cobsTermByte → LinkClass s d (.cobsData d)
  | rawData : s.cfg.framing = .text → 0 < s.rawRemaining → LinkClass s d (.rawData d)
  | textLf : s.cfg.framing = .text → s.rawRemaining = 0 → LinkClass s d .textLf
  | textCr : s.cfg.framing = .text → s.rawRemaining = 0 → LinkClass s d .textCr
  | textSent1 : s.cfg.framing = .text → s.rawRemaining = 0 → LinkClass s d .textSent1
  | textData : s.cfg.framing = .text → s.rawRemaining = 0 → d ≠ lfByte → d ≠ crByte → LinkClass s d (.textData d)

theorem linkOp_class (s : State) (d : Byte) : LinkClass s d (linkOp s d) := by
  unfold linkOp
  split
  next hf =>
    unfold classifyCobs
    split
    · exact .cobsTerm hf
    · exact .cobsData hf ‹_›
  next hf =>
    unfold classifyText
    split
    next hraw => exact .rawData hf (by simpa [rawActive] using hraw)
    next hraw =>
      have hidle : s.rawRemaining = 0 := by simpa [rawActive] using hraw
      split
      · exact .textLf hf hidle
      · split
        · exact .textCr hf hidle
        · split
          · exact .textSent1 hf hidle
          · exact .textData hf hidle ‹_› ‹_›

/-! ## A turn of `RX` and the refresh context -/

/-- What a turn of `RX` leaves of the state before it (R47, R49, R70, R286). -/
abbrev KeepsRefreshSide (s t : State) : Prop :=
  t.cfg = s.cfg ∧ SameRefreshSide s t ∧
    (s.cfg.encPlace = .refresh →
      t.bps = s.bps ∧ t.encActive = s.encActive ∧ t.encR = s.encR ∧ t.encX = s.encX ∧
        (s.hfNew = true → t.hfNew = true))

theorem keepsRefreshSide_refl (s : State) : KeepsRefreshSide s s :=
  ⟨rfl, ⟨rfl, rfl, rfl, rfl, rfl, rfl, rfl⟩, fun _ => ⟨rfl, rfl, rfl, rfl, id⟩⟩

theorem keepsRefreshSide_decodeClosed (s : State) : DecodeClosed (KeepsRefreshSide s) :=
  ⟨fun _ _ _ h _ => h, fun _ _ h => h, fun _ _ h => h⟩

theorem keepsRefreshSide_publish {s t : State} (h : KeepsRefreshSide s t) : KeepsRefreshSide s (publish t) := by
  obtain ⟨hcfg, hside, hpass⟩ := h
  refine ⟨hcfg, hside, fun hp => ?_⟩
  obtain ⟨hbps, hactive, hr, hx, -⟩ := hpass hp
  exact ⟨hbps, hactive, hr, hx, fun _ => rfl⟩

theorem keepsRefreshSide_acknowledge {s t : State} {d : Byte} (h : KeepsRefreshSide s t) :
    KeepsRefreshSide s (acknowledge d t) := h

/-- With `REFRESH` a publish is left for `RF` to take; with `RECEIVE` the pass is the receive context's (R284, R286). -/
theorem keepsRefreshSide_postPublish {s t : State} (h : KeepsRefreshSide s t) :
    KeepsRefreshSide s (postPublish t) := by
  obtain ⟨hcfg, hside, -⟩ := id h
  unfold postPublish
  split
  · exact h
  next hp =>
    have notRefresh : ¬ s.cfg.encPlace = .refresh := by simp [← hcfg, hp]
    have hstart : SameRefreshSide s (startPass (takeIfNew t)) := by
      unfold startPass
      split <;> exact hside
    split
    · exact ⟨by simpa using hcfg, hstart, fun h => absurd h notRefresh⟩
    · exact ⟨hcfg, hside, fun h => absurd h notRefresh⟩

theorem storeRecord_keepsRefreshSide {d : Byte} {s t : State} (h : KeepsRefreshSide s t) :
    EndsIn (KeepsRefreshSide s) (if t.rxLen < t.cfg.rxcap then storeRecord d t else .next (resetOverflow t)) := by
  split
  · exact (endsIn_writeByte (P := KeepsRefreshSide s) (by exact h)).andThen fun _ hu => hu
  · unfold resetOverflow
    split <;> exact h

theorem execCobsTerm_keepsRefreshSide {s t : State} (h : KeepsRefreshSide s t) :
    EndsIn (KeepsRefreshSide s) (execCobsTerm t) := by
  refine ((keepsRefreshSide_decodeClosed s).execDecCobs h).andThen fun u hu => ?_
  unfold afterCobs
  split
  · exact keepsRefreshSide_postPublish (keepsRefreshSide_publish hu)
  · exact hu

theorem execTextLf_keepsRefreshSide {s t : State} (h : KeepsRefreshSide s t) :
    EndsIn (KeepsRefreshSide s) (execTextLf t) := by
  refine ((keepsRefreshSide_decodeClosed s).execDecText h).andThen fun u hu => ?_
  unfold afterText
  split
  · exact keepsRefreshSide_postPublish (keepsRefreshSide_acknowledge (keepsRefreshSide_publish hu))
  · exact hu

theorem execRawData_keepsRefreshSide {d : Byte} {s t : State} (h : KeepsRefreshSide s t) :
    EndsIn (KeepsRefreshSide s) (execRawData d t) := by
  unfold execRawData rawComplete
  split
  · refine (endsIn_writeByte (P := KeepsRefreshSide s) (by exact h)).andThen fun u hu => ?_
    split
    · exact keepsRefreshSide_postPublish (keepsRefreshSide_acknowledge (keepsRefreshSide_publish hu))
    · exact hu
  · exact h

/-- The encoder in the receive context touches nothing of the refresh context (R70). -/
theorem encoderOp_keepsRefreshSide {s : State} (hp : s.cfg.encPlace = .receive) :
    EndsIn (KeepsRefreshSide s) (runOp (encoderOp s) s) := by
  have notRefresh : ¬ s.cfg.encPlace = .refresh := by simp [hp]
  have hclosed : PassClosed fun t => t.cfg = s.cfg ∧ SameRefreshSide s t :=
    ⟨fun _ _ h => h, fun _ _ _ h _ _ => h⟩
  obtain ⟨hcfg, hside, -⟩ := keepsRefreshSide_refl s
  refine endsIn_encoderOp ?_ ?_
  · refine hclosed.execEncPair ⟨hcfg, hside⟩ fun t ht => ?_
    rw [nextPair_eq]
    exact ⟨ht.1, ht.2, fun h => absurd h notRefresh⟩
  · unfold execEncEnd
    split
    · exact ⟨hcfg, hside, fun h => absurd h notRefresh⟩
    · exact absurd ‹_› notRefresh

theorem rxStep_keepsRefreshSide (s : State) : EndsIn (KeepsRefreshSide s) (rxStep s) := by
  unfold rxStep
  split
  · unfold rxEncoderOp
    split
    · exact encoderOp_keepsRefreshSide ‹_›
    · exact endsIn_fault
  · split
    · exact keepsRefreshSide_refl s
    next d rest _ =>
      have h : KeepsRefreshSide s (consumeLink d rest s) := keepsRefreshSide_refl s
      generalize linkOp s d = i, linkOp_class s d = hclass
      cases hclass with
      | cobsTerm => exact execCobsTerm_keepsRefreshSide h
      | textLf => exact execTextLf_keepsRefreshSide h
      | cobsData | textData => exact storeRecord_keepsRefreshSide h
      | rawData => exact execRawData_keepsRefreshSide h
      | textCr | textSent1 => exact h

/-- Settles O59, operation by operation; a failing decode ends like any other, in the receive context's registers. -/
theorem receiveTurnLeavesRefreshSide : Obligations.ReceiveTurnLeavesRefreshSide := by
  intro s t h
  have hends := rxStep_keepsRefreshSide s
  rw [h] at hends
  exact hends.2

end Sys2Proof.Machine
end

section
/-! PROOFS. The invariant under the elementary updates of the state: the candidate sets after a store, then one rule per
update, each naming the clauses of `Inv` that the update touches. -/

namespace Sys2Proof.Machine

/-! ## The listed sets -/

theorem mem_of_candGet {m : CandMap} {i : Nat} {c : List (Option Byte)} (h : candGet m i = some c) : (i, c) ∈ m := by
  induction m with
  | nil => cases h
  | cons p rest ih =>
    obtain ⟨j, d⟩ := p
    by_cases hij : i = j
    · subst hij
      simp only [candGet, if_true, Option.some.injEq] at h
      simp [h]
    · simp only [candGet, hij, if_false] at h
      exact List.mem_cons_of_mem _ (ih h)

theorem ne_of_candGet_none {m : CandMap} {i : Nat} (h : candGet m i = none) : ∀ p ∈ m, p.1 ≠ i := by
  induction m with
  | nil => simp
  | cons q rest ih =>
    by_cases hi : i = q.1
    · simp [candGet, hi] at h
    · simp only [candGet, hi, if_false] at h
      exact List.forall_mem_cons.mpr ⟨Ne.symm hi, ih h⟩

/-- In a sorted list of sets, listing one replaces the set of its index and no other. -/
theorem mem_candPut {m : CandMap} {i : Nat} {c : List (Option Byte)} {p : Nat × List (Option Byte)}
    (hsorted : (m.map Prod.fst).Pairwise (· < ·)) (h : p ∈ candPut m i c) : p = (i, c) ∨ (p ∈ m ∧ p.1 ≠ i) := by
  induction m with
  | nil => simpa [candPut] using h
  | cons q rest ih =>
    obtain ⟨j, d⟩ := q
    obtain ⟨hlt, hrest⟩ := List.pairwise_cons.mp hsorted
    have later : p ∈ rest → j < p.1 := fun hp => hlt _ (List.mem_map_of_mem hp)
    unfold candPut at h
    split at h
    next hij =>
      rcases List.mem_cons.mp h with rfl | hp
      · exact .inl rfl
      · refine .inr ⟨hp, ?_⟩
        rcases List.mem_cons.mp hp with rfl | hp
        · exact Nat.ne_of_gt hij
        · have := later hp
          omega
    next hij =>
      split at h
      next heq =>
        rcases List.mem_cons.mp h with rfl | hp
        · exact .inl rfl
        · have := later hp
          exact .inr ⟨List.mem_cons_of_mem _ hp, by omega⟩
      next hne =>
        rcases List.mem_cons.mp h with rfl | hp
        · exact .inr ⟨List.mem_cons_self, Ne.symm hne⟩
        · exact (ih hrest hp).imp_right fun hp => ⟨List.mem_cons_of_mem _ hp.1, hp.2⟩

/-- Listing a set keeps the indices rising. -/
theorem candPut_sorted {m : CandMap} {i : Nat} {c : List (Option Byte)}
    (hsorted : (m.map Prod.fst).Pairwise (· < ·)) : ((candPut m i c).map Prod.fst).Pairwise (· < ·) := by
  induction m with
  | nil => simp [candPut]
  | cons q rest ih =>
    obtain ⟨j, d⟩ := q
    obtain ⟨hlt, hrest⟩ := List.pairwise_cons.mp hsorted
    unfold candPut
    split
    next hij =>
      refine List.pairwise_cons.mpr ⟨?_, hsorted⟩
      rintro k (_ | ⟨_, hk⟩)
      · exact hij
      · exact hij.trans (hlt k hk)
    next hij =>
      split
      next heq => exact heq ▸ hsorted
      next hne =>
        refine List.pairwise_cons.mpr ⟨fun k hk => ?_, ih hrest⟩
        obtain ⟨p, hp, rfl⟩ := List.mem_map.mp hk
        rcases mem_candPut hrest hp with rfl | ⟨hp, -⟩
        · simp only
          omega
        · exact hlt _ (List.mem_map_of_mem hp)

/-- An insertion keeps a set sorted by its members' keys. -/
theorem candInsert_sorted {v : Option Byte} {c : List (Option Byte)}
    (h : c.Pairwise fun a b => candKey a < candKey b) : (candInsert v c).Pairwise fun a b => candKey a < candKey b := by
  induction c with
  | nil => simp [candInsert]
  | cons w rest ih =>
    obtain ⟨hlt, hrest⟩ := List.pairwise_cons.mp h
    unfold candInsert
    split
    next hvw =>
      refine List.pairwise_cons.mpr ⟨?_, h⟩
      rintro a (_ | ⟨_, ha⟩)
      · exact hvw
      · exact hvw.trans (hlt a ha)
    next hvw =>
      split
      · exact h
      next hne =>
        refine List.pairwise_cons.mpr ⟨fun a ha => ?_, ih hrest⟩
        rcases (mem_candInsert v a rest).mp ha with rfl | ha
        · omega
        · exact hlt a ha

theorem length_le_candInsert (v : Option Byte) (c : List (Option Byte)) : c.length ≤ (candInsert v c).length := by
  induction c with
  | nil => simp
  | cons w rest ih =>
    unfold candInsert
    split
    · simp
    · split
      · exact le_rfl
      · simpa using ih

/-- Two values in one set are two members. -/
theorem two_le_length_candInsert_singleton {v w : Option Byte} (h : candInsert v [w] ≠ [v]) :
    2 ≤ (candInsert v [w]).length := by
  by_cases hlt : candKey v < candKey w
  · simp [candInsert, hlt]
  · by_cases heq : candKey v = candKey w
    · have := candKey_injective v w heq
      subst this
      simp [candInsert] at h
    · simp [candInsert, hlt, heq]

/-! ## The sets after a store -/

/-- The candidate sets are listed in order, each as it should be (R72). -/
abbrev SetsOk (s : State) : Prop := (s.cand.map Prod.fst).Pairwise (· < ·) ∧ ∀ p ∈ s.cand, CandSetOk s p

/-- A listed set that an update of the state leaves alone, its byte too, stays as it should be. -/
theorem CandSetOk.of_same {s t : State} {p : Nat × List (Option Byte)} (h : CandSetOk s p) (hcfg : t.cfg = s.cfg)
    (hbyte : memGet (bufOf t (sharedBuf s.cfg)) p.1 = memGet (bufOf s (sharedBuf s.cfg)) p.1) : CandSetOk t p := by
  obtain ⟨hlt, htwo, hsorted, hcurrent⟩ := h
  exact ⟨by rwa [hcfg], htwo, hsorted, by rwa [hcfg, hbyte]⟩

theorem candOf_sorted {s : State} (h : SetsOk s) (i : Nat) :
    (candOf s i).Pairwise fun a b => candKey a < candKey b := by
  cases hi : candGet s.cand i with
  | none => simp [candOf_of_unlisted hi]
  | some c =>
    rw [candOf_of_listed hi]
    exact (h.2 _ (mem_of_candGet hi)).sorted

/-- The set that a store lists: it was listed before, or the value differs from the byte (R72). -/
theorem candSetOk_storeByte_shared {s : State} {i : Nat} {v : Byte} (h : SetsOk s)
    (hi : i < bufLen s.cfg (sharedBuf s.cfg))
    (hlisted : ¬ (candInsert (some v) (candOf s i) = [some v] ∧ candGet s.cand i = none)) :
    CandSetOk (storeByte s (sharedBuf s.cfg) i v) (i, candInsert (some v) (candOf s i)) where
  index_lt := hi
  two_members := by
    cases hget : candGet s.cand i with
    | none =>
      rw [candOf_of_unlisted hget] at hlisted ⊢
      exact two_le_length_candInsert_singleton fun heq => hlisted ⟨heq, hget⟩
    | some c =>
      rw [candOf_of_listed hget]
      exact (h.2 _ (mem_of_candGet hget)).two_members.trans (length_le_candInsert _ c)
  sorted := candInsert_sorted (candOf_sorted h i)
  holds_current := by
    rw [storeByte_cfg, memGet_storeByte]
    simp [mem_candInsert]

/-- A store inside a buffer keeps the sets as they should be (R72). -/
theorem setsOk_storeByte {s : State} {b : Buf} {i : Nat} {v : Byte} (h : SetsOk s) (hi : i < bufLen s.cfg b) :
    SetsOk (storeByte s b i v) := by
  by_cases hb : b = sharedBuf s.cfg
  · subst hb
    have other : ∀ p ∈ s.cand, p.1 ≠ i → CandSetOk (storeByte s (sharedBuf s.cfg) i v) p := fun p hp hne =>
      (h.2 p hp).of_same rfl (by simp [memGet_storeByte, hne])
    rw [SetsOk, storeByte_cand, if_pos rfl]
    by_cases hsame : candInsert (some v) (candOf s i) = [some v] ∧ candGet s.cand i = none
    · rw [candAdd, if_pos hsame]
      exact ⟨h.1, fun p hp => other p hp (ne_of_candGet_none hsame.2 p hp)⟩
    · rw [candAdd, if_neg hsame]
      refine ⟨candPut_sorted h.1, fun p hp => ?_⟩
      rcases mem_candPut h.1 hp with rfl | ⟨hp, hne⟩
      · exact candSetOk_storeByte_shared h hi hsame
      · exact other p hp hne
  · rw [SetsOk, storeByte_cand_of_not_shared hb]
    exact ⟨h.1, fun p hp => (h.2 p hp).of_same rfl (by simp [memGet_storeByte, Ne.symm hb])⟩

/-! ## The invariant and the sets -/

/-- No set is empty: a listed one has two members, an unlisted one its byte (R72). -/
theorem Inv.setsNonempty {s : State} (h : Inv s) : SetsNonempty s := by
  intro i
  cases hi : candGet s.cand i with
  | none => simp [candOf_of_unlisted hi]
  | some c =>
    have htwo := (h.cand_ok _ (mem_of_candGet hi)).two_members
    rw [candOf_of_listed hi]
    rintro rfl
    simp at htwo

/-- What every update that leaves the sets and the shared buffer alone owes the invariant about them. -/
theorem Inv.sets_kept {s t : State} (h : Inv s) (hcand : t.cand = s.cand) (hcfg : t.cfg = s.cfg)
    (hbuf : bufOf t (sharedBuf s.cfg) = bufOf s (sharedBuf s.cfg)) : ∀ p ∈ t.cand, CandSetOk t p :=
  fun p hp => (h.cand_ok p (hcand ▸ hp)).of_same hcfg (by rw [hbuf])

theorem Inv.setsOk_storeByte {s : State} (h : Inv s) {b : Buf} {i : Nat} {v : Byte} (hi : i < bufLen s.cfg b) :
    SetsOk (storeByte s b i v) :=
  Machine.setsOk_storeByte ⟨h.cand_sorted, h.cand_ok⟩ hi

/-! ## Updates of no agent and of both -/

theorem Inv.emit {s : State} (h : Inv s) (e : Event) : Inv (emit e s) :=
  { h with cand_ok := h.sets_kept rfl rfl rfl }

theorem Inv.draw {s : State} (h : Inv s) (n : Nat) : Inv { s with tick := n } :=
  { h with cand_ok := h.sets_kept rfl rfl rfl }

theorem Inv.consumeLink {s : State} (h : Inv s) (d : Byte) (rest : List Byte) : Inv (consumeLink d rest s) :=
  { h with cand_ok := h.sets_kept rfl rfl rfl }

theorem Inv.environmentMoves {s : State} (h : Inv s) (m : EnvMove) : Inv (environmentMoves m s) := by
  cases m <;> exact { h with cand_ok := h.sets_kept rfl rfl rfl }

theorem Inv.nextTurn {s : State} (h : Inv s) : Inv (nextTurn s).2 := by
  unfold Machine.nextTurn
  split <;> exact { h with cand_ok := h.sets_kept rfl rfl rfl }

theorem Inv.startReaderPass {s : State} (h : Inv s) : Inv (startReaderPass s) :=
  { h with cand_sorted := List.Pairwise.nil, cand_ok := nofun }

/-! ## Stores -/

theorem Inv.storeFrameByte {s : State} (h : Inv s) {i : Nat} {v : Byte} (hi : i < frameBytes s.cfg) :
    Inv (storeByte s .fb i v) :=
  { h with
    fb_wf := memSet_wf _ _ _ h.fb_wf
    fb_below := memSet_below _ _ _ _ h.fb_below hi
    cand_sorted := (h.setsOk_storeByte hi).1
    cand_ok := (h.setsOk_storeByte hi).2 }

theorem Inv.storePlaneByte {s : State} (h : Inv s) {i : Nat} {v : Byte} (hi : i < bpsBytes s.cfg)
    (hv : v.toNat < 64) : Inv (storeByte s .bps i v) :=
  { h with
    bps_wf := memSet_wf _ _ _ h.bps_wf
    bps_below := memSet_below _ _ _ _ h.bps_below hi
    planes_reserved := fun p hp => (mem_memSet _ _ _ p hp).elim (fun heq => heq ▸ hv) (h.planes_reserved p)
    cand_sorted := (h.setsOk_storeByte hi).1
    cand_ok := (h.setsOk_storeByte hi).2 }

/-- A stored link byte is no terminator of its framing, which is why a record holds none (R98). -/
theorem Inv.storeRecordByte {s : State} (h : Inv s) {d : Byte} (hroom : s.rxLen < s.cfg.rxcap)
    (hraw : s.rawRemaining = 0) (hcobs : s.cfg.framing = .cobs → d ≠ cobsTermByte)
    (htext : s.cfg.framing = .text → d ≠ lfByte ∧ d ≠ crByte) :
    Inv { s with rxb := memSet s.rxb s.rxLen d, rxLen := s.rxLen + 1 } := by
  have stored : ∀ {Q : Option Byte → Prop}, Q (some d) → (∀ i, i < s.rxLen → Q (memGet s.rxb i)) →
      ∀ i, i < s.rxLen + 1 → Q (memGet (memSet s.rxb s.rxLen d) i) := by
    intro Q hnew hold i hi
    rw [memGet_memSet]
    split
    · exact hnew
    · exact hold i (by omega)
  exact { h with
    rx_len_le := hroom
    raw_active := fun hpos => by
      simp only at hpos
      omega
    record_stored := stored (Q := fun c => c.isSome = true) rfl h.record_stored
    record_cobs := fun hf =>
      stored (Q := fun c => c ≠ some cobsTermByte) (by simpa using hcobs hf) (h.record_cobs hf)
    record_text := fun hf =>
      stored (Q := fun c => c ≠ some lfByte ∧ c ≠ some crByte) (by simpa using htext hf) (h.record_text hf)
    rxb_wf := memSet_wf _ _ _ h.rxb_wf
    rxb_below := memSet_below _ _ _ _ h.rxb_below hroom
    cand_ok := h.sets_kept rfl rfl (by cases hp : s.cfg.encPlace <;> simp [sharedBuf, hp, bufOf]) }

/-! ## The receive context's registers -/

/-- The record emptied (R211). -/
theorem Inv.clearRecord {s : State} (h : Inv s) : Inv { s with rxLen := 0 } :=
  { h with
    rx_len_le := Nat.zero_le _
    raw_active := fun hpos => ⟨(h.raw_active hpos).1, rfl, (h.raw_active hpos).2.2⟩
    record_stored := nofun
    record_cobs := nofun
    record_text := nofun
    cand_ok := h.sets_kept rfl rfl rfl }

/-- The counters of the raw path with an empty record: in text mode, with accounts that agree (R34, R260). -/
theorem Inv.setRawCounters {s : State} (h : Inv s) {remaining offset : Nat} (hf : s.cfg.framing = .text)
    (hlen : s.rxLen = 0) (hsum : offset + remaining = frameBytes s.cfg) (hpos : 0 < remaining) :
    Inv { s with rawRemaining := remaining, rawOffset := offset } :=
  { h with
    raw_active := fun _ => ⟨hsum, hlen, hf⟩
    raw_idle := fun hzero => absurd hzero (Nat.ne_of_gt hpos)
    cand_ok := h.sets_kept rfl rfl rfl }

/-- A raw payload that is over (R263). -/
theorem Inv.clearRawCounters {s : State} (h : Inv s) : Inv { s with rawRemaining := 0, rawOffset := 0 } :=
  { h with
    raw_active := nofun
    raw_idle := fun _ => rfl
    cand_ok := h.sets_kept rfl rfl rfl }

/-- After a publish the frame waits with `REFRESH`, and with `RECEIVE` it is taken and the pass begins (R284). -/
theorem Inv.postPublish {s : State} (h : Inv { s with hfNew := false }) (hnew : s.hfNew = true) :
    Inv (postPublish s) := by
  cases hp : s.cfg.encPlace with
  | refresh =>
    rw [postPublish_refresh hp]
    exact { h with
      receive_takes := fun hreceive => by simp [hp] at hreceive
      cand_ok := h.sets_kept rfl rfl rfl }
  | receive =>
    rw [postPublish_receive hp hnew]
    have notEnc : s.sdPhase ≠ .enc := fun henc => by simpa [hp] using (h.rf_in_pass.mp henc).2
    exact { h with
      rx_in_pass := by simp [hp]
      rf_in_pass := by simp [hp, notEnc]
      pass_position := fun _ => .inl ⟨rows_pos_of_configOk h.config_ok, width_pos_of_configOk h.config_ok⟩
      cand_ok := h.sets_kept rfl rfl rfl }

/-- A publish, with or without its acknowledge byte, before the take that may follow it (R280). -/
theorem Inv.publishing {s : State} (h : Inv s) (trace : List Event) :
    Inv { s with hfNew := false, trace := trace } :=
  { h with
    receive_takes := fun _ => rfl
    cand_ok := h.sets_kept rfl rfl rfl }

/-! ## The encode pass -/

/-- The position after a pair (R141). -/
theorem Inv.nextPair {s : State} (h : Inv s) (hr : s.encR < rows s.cfg) (hx : s.encX < s.cfg.width) :
    Inv (nextPair s) := by
  unfold Machine.nextPair
  split
  next hlt => exact { h with
    pass_position := fun _ => .inl ⟨hr, hlt⟩
    cand_ok := h.sets_kept rfl rfl rfl }
  · exact { h with
      pass_position := fun _ => by
        rcases Nat.lt_or_eq_of_le (Nat.succ_le_of_lt hr) with hlt | heq
        · exact .inl ⟨hlt, by simp only; omega⟩
        · exact .inr ⟨heq, rfl⟩
      cand_ok := h.sets_kept rfl rfl rfl }

/-- The end of a pass returns its agent to its own loop (R142). -/
theorem Inv.endPass {s : State} (h : Inv s) : EndsIn Inv (execEncEnd s) := by
  unfold execEncEnd
  split
  next hp =>
    have notEnc : s.sdPhase ≠ .enc := fun henc => by simpa [hp] using (h.rf_in_pass.mp henc).2
    exact { h with
      rx_in_pass := by simp
      rf_in_pass := by simp [notEnc]
      pass_position := nofun
      cand_ok := h.sets_kept rfl rfl rfl }
  next hp =>
    have notEncode : s.rxPhase ≠ .encode := fun henc => by simpa [hp] using (h.rx_in_pass.mp henc).2
    exact { h with
      rx_in_pass := by simp [notEncode]
      rf_in_pass := by simp
      take_only_refresh := nofun
      pass_position := nofun
      sd_col_lt := nofun
      cycle_end := by simp
      dark := by simp
      lit := by simp
      cand_ok := h.sets_kept rfl rfl rfl }

/-! ## The scan driver -/

/-- The scan driver at another position, outside a pass: what the position owes the invariant (R46, R160, R174). -/
theorem Inv.scanTo {s : State} (h : Inv s) (henc : s.sdPhase ≠ .enc) {p : SdPhase} {bit row col addr : Nat}
    {oe : OeLevel} {lat : LatLevel} (hp : p ≠ .enc)
    (htake : p = .take → s.cfg.encPlace = .refresh ∧ bit = 0 ∧ row = 0) (hbit : bit < depthBits)
    (hrow : row < rows s.cfg) (hcol : p = .shift → col < s.cfg.width) (haddr : addr < 2 ^ s.cfg.addrBits)
    (hdark : p ≠ .blank → p ≠ .hold → p ≠ .blankEnd → oe = .disabled)
    (hlit : p = .hold ∨ p = .blankEnd → oe = .enabled) :
    Inv { s with
          sdPhase := p, sdBit := bit, sdRow := row, sdCol := col, addrValue := addr, oeLevel := oe, latLevel := lat } :=
  { h with
    rf_in_pass := by
      have hnot := mt h.rf_in_pass.mpr henc
      simp [hp, hnot]
    take_only_refresh := fun h => (htake h).1
    sd_bit_lt := hbit
    sd_row_lt := hrow
    sd_col_lt := hcol
    cycle_end := fun hend => hend.elim (fun h => (htake h).2) fun h => absurd h hp
    dark := hdark
    lit := hlit
    addr_lt := haddr
    cand_ok := h.sets_kept rfl rfl rfl }

/-- The phases from the shift to the enable leave the output disabled (R174). -/
theorem Inv.scanDark {s : State} (h : Inv s)
    (hphase : s.sdPhase = .shift ∨ s.sdPhase = .addr ∨ s.sdPhase = .latOn ∨ s.sdPhase = .latOff)
    {p : SdPhase} {addr : Nat} {lat : LatLevel} (hp : p = .addr ∨ p = .latOn ∨ p = .latOff ∨ p = .enable)
    (haddr : addr < 2 ^ s.cfg.addrBits) :
    Inv { s with sdPhase := p, addrValue := addr, latLevel := lat } := by
  have hfrom : s.sdPhase ≠ .enc ∧ s.sdPhase ≠ .blank ∧ s.sdPhase ≠ .hold ∧ s.sdPhase ≠ .blankEnd := by
    rcases hphase with h | h | h | h <;> simp [h]
  have hto : p ≠ .enc ∧ p ≠ .take ∧ p ≠ .shift ∧ p ≠ .hold ∧ p ≠ .blankEnd := by
    rcases hp with rfl | rfl | rfl | rfl <;> simp
  obtain ⟨henc, hblank, hhold, hend⟩ := hfrom
  obtain ⟨henc', htake, hshift, hhold', hend'⟩ := hto
  exact h.scanTo henc henc' (fun h => absurd h htake) h.sd_bit_lt h.sd_row_lt (fun h => absurd h hshift) haddr
    (fun _ _ _ => h.dark hblank hhold hend) (by simp [hhold', hend'])

/-- The next column, or the address phase after the last one (R162). -/
theorem Inv.nextColumn {s : State} (h : Inv s) (hphase : s.sdPhase = .shift) : Inv (nextColumn s) := by
  unfold Machine.nextColumn
  split
  · exact { h with
      sd_col_lt := fun hshift => (Nat.sub_le _ _).trans_lt (h.sd_col_lt hshift)
      cand_ok := h.sets_kept rfl rfl rfl }
  · exact h.scanDark (.inl hphase) (.inl rfl) h.addr_lt

/-- A take in `RF` that finds a frame starts its pass (R169). -/
theorem Inv.takeFrame {s : State} (h : Inv s) (hp : s.cfg.encPlace = .refresh) (hphase : s.sdPhase = .take) :
    Inv { startPass (takeIfNew s) with sdPhase := .enc } := by
  have notEncode : s.rxPhase ≠ .encode := fun henc => by simpa [hp] using (h.rx_in_pass.mp henc).2
  have hdark : s.oeLevel = .disabled := h.dark (by simp [hphase]) (by simp [hphase]) (by simp [hphase])
  unfold startPass
  split
  next hreceive => simp [hp] at hreceive
  exact { h with
    rx_in_pass := by simp [notEncode, hp]
    rf_in_pass := by simp [hp]
    take_only_refresh := nofun
    pass_position := fun _ => .inl ⟨rows_pos_of_configOk h.config_ok, width_pos_of_configOk h.config_ok⟩
    sd_col_lt := nofun
    cycle_end := fun _ => h.cycle_end (.inl hphase)
    dark := fun _ _ _ => hdark
    lit := by simp
    receive_takes := fun _ => rfl
    cand_sorted := List.Pairwise.nil
    cand_ok := nofun }

end Sys2Proof.Machine
end

section
/-! PROOFS. From every state with the invariant a step answers a next state that has it (R309). A decode answers because
it reads no further than its record (R210, R243); it keeps the invariant by the walk over a decode; the rest goes
operation by operation. -/

namespace Sys2Proof.Machine

/-- The answer is a next state that satisfies `P`. -/
abbrev Answers (P : State → Prop) (r : Result) : Prop := ∃ t, r = .next t ∧ P t

theorem Answers.next {P : State → Prop} {s : State} (h : P s) : Answers P (.next s) := ⟨s, rfl, h⟩

theorem Answers.andThen {P Q : State → Prop} {r : Result} {k : State → Result} (hr : Answers Q r)
    (hk : ∀ t, Q t → Answers P (k t)) : Answers P (andThen r k) := by
  obtain ⟨t, rfl, ht⟩ := hr
  exact hk t ht

/-- A guarded sequence may stop after its first part (R16). -/
theorem Answers.unlessFailed {P Q : State → Prop} {r : Result} {k : State → Result} (hr : Answers Q r)
    (hstop : ∀ t, Q t → P t) (hk : ∀ t, Q t → Answers P (k t)) : Answers P (unlessFailed r k) := by
  obtain ⟨t, rfl, ht⟩ := hr
  rw [unlessFailed_next]
  split
  · exact .next (hstop t ht)
  · exact hk t ht

/-- An answer that is known to be a next state, with what is known of its next state. -/
theorem EndsIn.answers {P Q : State → Prop} {r : Result} (h : EndsIn P r) (hr : Answers Q r) : Answers P r := by
  obtain ⟨t, rfl, -⟩ := hr
  exact .next h

/-! ## A decode reads no further than its record -/

/-- A record decode of `n` bytes that has read at most `i` of them, in configuration `c`. -/
def ReadsUpTo (c : Config) (n i : Nat) (s : State) : Prop := s.cfg = c ∧ s.dec.n = n ∧ s.dec.i ≤ i

theorem ReadsUpTo.mono {c : Config} {n i j : Nat} {s : State} (h : ReadsUpTo c n i s) (hij : i ≤ j) :
    ReadsUpTo c n j s :=
  ⟨h.1, h.2.1, h.2.2.trans hij⟩

theorem ReadsUpTo.advance {c : Config} {n i : Nat} {s : State} (h : ReadsUpTo c n i s) :
    ReadsUpTo c n (i + 1) (advanceIn s) :=
  ⟨h.1, h.2.1, Nat.succ_le_succ h.2.2⟩

theorem readThen_rxb_of_lt {s : State} {i : Nat} {k : Byte → State → Result} (h : i < s.cfg.rxcap) :
    readThen s .rxb i k = k (currentByte s .rxb i) s := by
  rw [readThen_of_lt (by exact h), readValue_rxb, afterRead_rxb]

section
variable {c : Config} {n i : Nat} {s : State}

theorem outByte_readsUpTo {v : Byte} (h : ReadsUpTo c n i s) : Answers (ReadsUpTo c n i) (outByte v s) := by
  by_cases ho : s.dec.o < frameBytes s.cfg
  · rw [outByte_of_lt ho]
    exact .next h
  · rw [outByte_of_ge (Nat.le_of_not_lt ho)]
    exact .next h

/-! ### Byte-stuffed framing -/

theorem copyLiterals_readsUpTo {m : Nat} (h : ReadsUpTo c n i s) (hm : i + m ≤ c.rxcap) :
    Answers (ReadsUpTo c n (i + m)) (copyLiterals m s) := by
  induction m generalizing i s with
  | zero => exact .next h
  | succ m ih =>
    obtain ⟨hcfg, hn, hi⟩ := h
    by_cases ho : s.dec.o < frameBytes s.cfg
    · rw [copyLiterals_succ (by rw [hcfg]; omega) ho, ← Nat.succ_add_eq_add_succ]
      exact ih ⟨hcfg, hn, Nat.succ_le_succ hi⟩ (by omega)
    · rw [copyLiterals, if_pos (Nat.le_of_not_lt ho)]
      exact .next ⟨hcfg, hn, by simp only [raiseFail_dec]; omega⟩

theorem implicitZero_readsUpTo (h : ReadsUpTo c n i s) : Answers (ReadsUpTo c n i) (implicitZero s) := by
  unfold implicitZero
  split
  · exact outByte_readsUpTo h
  · exact .next h

/-- A block that announces more than its record holds fails before it reads; every other one stays in the record
(R215). -/
theorem runCode_readsUpTo {d : Byte} (h : ReadsUpTo c n n s) (hn : n ≤ c.rxcap) :
    Answers (ReadsUpTo c n n) (runCode d s) := by
  have literals : ∀ m, ¬ s.dec.n < s.dec.i + m → Answers (ReadsUpTo c n n) (copyLiterals m s) := by
    intro m hm
    have hlen : s.dec.i + m ≤ n := by
      rw [← h.2.1]
      omega
    obtain ⟨t, ht, hread⟩ := copyLiterals_readsUpTo (m := m) ⟨h.1, h.2.1, le_rfl⟩ (hlen.trans hn)
    exact ⟨t, ht, hread.mono hlen⟩
  unfold runCode execCobsCodeFF execCobsCode
  split
  · exact .next h
  · split <;> split
    · exact .next h
    · exact literals _ ‹_›
    · exact .next h
    · exact (literals _ ‹_›).unlessFailed (fun _ => id) fun _ => implicitZero_readsUpTo

theorem cobsBlocks_readsUpTo {fuel : Nat} (h : ReadsUpTo c n n s) (hn : n ≤ c.rxcap) :
    Answers (ReadsUpTo c n n) (cobsBlocks fuel s) := by
  induction fuel generalizing s with
  | zero => exact .next h
  | succ f ih =>
    unfold cobsBlocks
    split
    next hlt =>
      obtain ⟨hcfg, hlen, -⟩ := h
      have hin : s.dec.i + 1 ≤ n := by omega
      rw [readThen_rxb_of_lt (by rw [hcfg]; omega)]
      exact (runCode_readsUpTo (s := advanceIn s) ⟨hcfg, hlen, hin⟩ hn).unlessFailed (fun _ => id) fun _ => ih
    · exact .next h

/-! ### Text framing -/

theorem outGroup_readsUpTo (h : ReadsUpTo c n i s) : Answers (ReadsUpTo c n i) (outGroup s) :=
  (outByte_readsUpTo h).unlessFailed (fun _ => id) fun _ ht =>
    (outByte_readsUpTo ht).unlessFailed (fun _ => id) fun _ hu =>
      (outByte_readsUpTo hu).unlessFailed (fun _ => id) fun _ hw => .next hw

theorem acceptSextet_readsUpTo {v : BitVec 6} (h : ReadsUpTo c n i s) :
    Answers (ReadsUpTo c n i) (acceptSextet v s) := by
  unfold acceptSextet
  split
  · exact outGroup_readsUpTo h
  · exact .next h

theorem runSym_readsUpTo {d : Byte} (h : ReadsUpTo c n i s) : Answers (ReadsUpTo c n i) (runSym d s) := by
  unfold runSym
  iterate 5
    split
    · exact acceptSextet_readsUpTo h
  split <;> exact .next h

theorem textSymbols_readsUpTo {m : Nat} (h : ReadsUpTo c n i s) (hm : i + m ≤ c.rxcap) :
    Answers (ReadsUpTo c n (i + m)) (textSymbols m s) := by
  induction m generalizing i s with
  | zero => exact .next h
  | succ r ih =>
    have hlt : s.dec.i < s.cfg.rxcap := by
      obtain ⟨hcfg, -, hi⟩ := h
      rw [hcfg]
      omega
    rw [textSymbols, readThen_rxb_of_lt hlt, ← Nat.succ_add_eq_add_succ]
    exact (runSym_readsUpTo h).unlessFailed (fun _ ht => ht.mono (by omega)) fun _ ht => ih ht.advance (by omega)

theorem flushGroup_readsUpTo (h : ReadsUpTo c n i s) : Answers (ReadsUpTo c n i) (flushGroup s) := by
  unfold flushGroup
  split
  · exact outByte_readsUpTo h
  · split
    · exact (outByte_readsUpTo h).unlessFailed (fun _ => id) fun _ => outByte_readsUpTo
    · exact .next h

end

/-- `DEC.COBS` answers a next state for every record that fits the receive buffer (R210). -/
theorem execDecCobs_completes {s : State} (h : s.rxLen ≤ s.cfg.rxcap) : Answers (fun _ => True) (execDecCobs s) :=
  (cobsBlocks_readsUpTo (s := startDecode s) ⟨rfl, rfl, Nat.zero_le _⟩ h).unlessFailed (fun _ _ => trivial)
    fun _ _ => .next trivial

/-- `DEC.TEXT` answers a next state for every record that fits the receive buffer (R243). -/
theorem execDecText_completes {s : State} (h : s.rxLen ≤ s.cfg.rxcap) : Answers (fun _ => True) (execDecText s) :=
  (textSymbols_readsUpTo (s := startDecode s) (i := 0) ⟨rfl, rfl, le_rfl⟩ (by simpa using h)).unlessFailed
    (fun _ _ => trivial) fun _ ht =>
      (flushGroup_readsUpTo ht).unlessFailed (fun _ _ => trivial) fun _ _ => .next trivial

/-! ## The receive context's operations -/

/-- A decode keeps what the invariant says once its locals are gone (R35). -/
theorem inv_endDecode_decodeClosed : DecodeClosed fun s => Inv (endDecode s) where
  store := fun _ _ _ h hi => h.storeFrameByte hi
  locals := fun _ _ h => h
  label := fun _ k h => h.emit (.fail k)

theorem Inv.endDecode {s : State} (h : Inv s) : Inv (endDecode s) :=
  { h with
    decode_idle := rfl
    cand_ok := h.sets_kept rfl rfl rfl }

theorem execCobsTerm_answers {s : State} (h : Inv s) : Answers Inv (execCobsTerm s) := by
  have hdec := (inv_endDecode_decodeClosed.execDecCobs h.endDecode).answers (execDecCobs_completes h.rx_len_le)
  refine hdec.andThen fun t ht => .next ?_
  unfold afterCobs
  split
  · exact Inv.postPublish (ht.clearRecord.publishing _) rfl
  · exact ht.clearRecord

theorem execTextLf_answers {s : State} (h : Inv s) : Answers Inv (execTextLf s) := by
  have hdec := (inv_endDecode_decodeClosed.execDecText h.endDecode).answers (execDecText_completes h.rx_len_le)
  refine hdec.andThen fun t ht => .next ?_
  unfold afterText
  split
  · exact Inv.postPublish (ht.clearRecord.publishing _) rfl
  · exact ht.clearRecord.emit _

theorem Inv.resetOverflow {s : State} (h : Inv s) : Inv (resetOverflow s) := by
  unfold Machine.resetOverflow
  split
  · exact h.clearRecord.emit _
  · exact (h.clearRecord.emit _).emit _

/-- A byte of a record is stored, or finds the buffer full (R203, R204, R246). -/
theorem storeOrOverflow_answers {d : Byte} {s : State} (h : Inv s) (hraw : s.rawRemaining = 0)
    (hcobs : s.cfg.framing = .cobs → d ≠ cobsTermByte) (htext : s.cfg.framing = .text → d ≠ lfByte ∧ d ≠ crByte) :
    Answers Inv (if s.rxLen < s.cfg.rxcap then storeRecord d s else .next (Machine.resetOverflow s)) := by
  split
  next hroom =>
    rw [storeRecord_of_lt hroom]
    exact .next (h.storeRecordByte hroom hraw hcobs htext)
  · exact .next h.resetOverflow

theorem execTextSent1_answers {s : State} (h : Inv s) (hf : s.cfg.framing = .text) :
    Answers Inv (execTextSent1 s) := by
  have hpos : 0 < frameBytes s.cfg := by
    obtain ⟨hw, hh, -⟩ := (configOk_iff s.cfg).mp h.config_ok
    exact Nat.mul_pos (Nat.mul_pos hw (by omega)) two_pos
  exact .next (h.clearRecord.setRawCounters hf rfl (Nat.zero_add _) hpos)

/-- The accounts of an active raw payload agree, so a raw byte is written and counted (R262, R264). -/
theorem execRawData_answers {d : Byte} {s : State} (h : Inv s) (hactive : 0 < s.rawRemaining) :
    Answers Inv (execRawData d s) := by
  obtain ⟨hsum, hlen, hf⟩ := h.raw_active hactive
  have hstored := h.storeFrameByte (v := d) (show s.rawOffset < frameBytes s.cfg by omega)
  refine ⟨_, execRawData_of_agree hsum hactive, ?_⟩
  split
  next hlast =>
    have hcomplete : rawComplete (rawAdvance (storeByte s .fb s.rawOffset d)) =
        postPublish (acknowledge ackOkByte (publish
          { storeByte s .fb s.rawOffset d with rawRemaining := 0, rawOffset := 0 })) := by
      simp [rawComplete, rawAdvance, hlast]
    rw [hcomplete]
    exact Inv.postPublish (hstored.clearRawCounters.publishing _) rfl
  · exact hstored.setRawCounters hf hlen
      (by simp only [storeByte_cfg, storeByte_rawOffset, storeByte_rawRemaining]; omega)
      (by simp only [storeByte_rawRemaining]; omega)

/-! ## The encoder in either context -/

/-- In a pass one of the encoder's steps is enabled (R141, R142). -/
theorem encoderOp_answers {s : State} (h : Inv s) (hactive : s.encActive = true) :
    Answers Inv (runOp (encoderOp s) s) := by
  have hclosed : PassClosed fun t => Inv t ∧ t.encR < rows t.cfg ∧ t.encX < t.cfg.width :=
    ⟨fun t n ht => ⟨ht.1.draw n, ht.2⟩, fun t i v ht hi hv => ⟨ht.1.storePlaneByte hi hv, ht.2⟩⟩
  rcases h.pass_position hactive with ⟨hr, hx⟩ | ⟨hr, -⟩
  · have hop : encoderOp s = some .encPair := by simp [encoderOp, encPairEnabled, hactive, hr]
    obtain ⟨t, _, _, _, _, hexec, -⟩ := encodePairWritesPlanes s hr hx h.setsNonempty
    rw [hop]
    exact (hclosed.execEncPair ⟨h, hr, hx⟩ fun t ⟨ht, htr, htx⟩ => ht.nextPair htr htx).answers
      (Q := fun _ => True) ⟨t, hexec, trivial⟩
  · have hop : encoderOp s = some .encEnd := by simp [encoderOp, encPairEnabled, encEndEnabled, hactive, hr]
    have hend : Answers (fun _ => True) (execEncEnd s) := by
      unfold execEncEnd
      split <;> exact .next trivial
    rw [hop]
    exact h.endPass.answers hend

/-! ## The turns -/

theorem rxStep_answers {s : State} (h : Inv s) : Answers Inv (rxStep s) := by
  unfold rxStep
  split
  next hphase =>
    obtain ⟨hactive, hp⟩ := h.rx_in_pass.mp hphase
    have hop : rxEncoderOp s = encoderOp s := by simp [rxEncoderOp, hp]
    rw [hop]
    exact encoderOp_answers h hactive
  · split
    · exact .next h
    next d rest _ =>
      have hnext := h.consumeLink d rest
      have rawIdle : s.cfg.framing = .cobs → s.rawRemaining = 0 := fun hf => by
        by_contra hraw
        simpa [hf] using (h.raw_active (Nat.pos_of_ne_zero hraw)).2.2
      generalize linkOp s d = i, linkOp_class s d = hclass
      cases hclass with
      | cobsTerm => exact execCobsTerm_answers hnext
      | cobsData hf hd =>
        exact storeOrOverflow_answers hnext (rawIdle hf) (fun _ => hd) fun htext => by simp [hf] at htext
      | rawData hf hactive => exact execRawData_answers hnext hactive
      | textLf => exact execTextLf_answers hnext
      | textCr => exact .next hnext
      | textSent1 hf => exact execTextSent1_answers hnext hf
      | textData hf hraw hlf hcr =>
        exact storeOrOverflow_answers hnext hraw (fun hcobs => by simp [hf] at hcobs) fun _ => ⟨hlf, hcr⟩

section
variable {s : State} (h : Inv s)
include h

theorem execSdBlank_answers (hphase : s.sdPhase = .blank) : Answers Inv (execSdBlank s) := by
  have hwidth := width_pos_of_configOk h.config_ok
  have hmoved : Inv (emit (.oe .disabled)
      { s with oeLevel := .disabled, sdCol := s.cfg.width - 1, sdPhase := .shift }) :=
    (h.scanTo (by simp [hphase]) (by simp) (by simp) h.sd_bit_lt h.sd_row_lt (fun _ => by omega) h.addr_lt
      (fun _ _ _ => rfl) (by simp)).emit _
  unfold execSdBlank
  split
  · exact .next hmoved.startReaderPass
  · exact .next hmoved

theorem execSdShift_answers (hphase : s.sdPhase = .shift) : Answers Inv (execSdShift s) := by
  unfold execSdShift
  split
  · rw [readThen_of_lt (by exact bpi_lt h.sd_row_lt h.sd_bit_lt (h.sd_col_lt hphase)), afterRead_eq]
    exact .next (((h.draw _).emit _).nextColumn hphase)
  · exact .next h

theorem execSdAddr_answers (hphase : s.sdPhase = .addr) : Answers Inv (execSdAddr s) :=
  .next ((h.scanDark (.inr (.inl hphase)) (.inr (.inl rfl))
    (h.sd_row_lt.trans_le (rows_le_of_configOk h.config_ok))).emit _)

theorem execSdLatOn_answers (hphase : s.sdPhase = .latOn) : Answers Inv (execSdLatOn s) :=
  .next ((h.scanDark (by simp [hphase]) (.inr (.inr (.inl rfl))) h.addr_lt).emit _)

theorem execSdLatOff_answers (hphase : s.sdPhase = .latOff) : Answers Inv (execSdLatOff s) :=
  .next ((h.scanDark (by simp [hphase]) (.inr (.inr (.inr rfl))) h.addr_lt).emit _)

theorem execSdEnable_answers (hphase : s.sdPhase = .enable) : Answers Inv (execSdEnable s) :=
  .next ((h.scanTo (by simp [hphase]) (by simp) (by simp) h.sd_bit_lt h.sd_row_lt (by simp) h.addr_lt (by simp)
    (fun _ => rfl)).emit _)

theorem execSdHold_answers (hphase : s.sdPhase = .hold) : Answers Inv (execSdHold s) :=
  .next ((h.scanTo (by simp [hphase]) (by simp) (by simp) h.sd_bit_lt h.sd_row_lt (by simp) h.addr_lt (by simp)
    (fun _ => h.lit (.inl hphase))).emit _)

theorem execSdBlankEnd_answers (hphase : s.sdPhase = .blankEnd) : Answers Inv (execSdBlankEnd s) := by
  have hrow := rows_pos_of_configOk h.config_ok
  have moved : ∀ {p bit row}, p = .blank ∨ (p = .take ∧ s.cfg.encPlace = .refresh ∧ bit = 0 ∧ row = 0) →
      bit < depthBits → row < rows s.cfg →
      Inv (emit (.oe .disabled) { s with oeLevel := .disabled, sdPhase := p, sdBit := bit, sdRow := row }) := by
    rintro p bit row hp hbit hrow
    have hnot : p ≠ .enc ∧ p ≠ .shift ∧ p ≠ .hold ∧ p ≠ .blankEnd := by
      rcases hp with rfl | ⟨rfl, -⟩ <;> simp
    obtain ⟨henc, hshift, hhold, hend⟩ := hnot
    have htake : p = .take → s.cfg.encPlace = .refresh ∧ bit = 0 ∧ row = 0 := by
      rintro rfl
      simpa using hp
    exact (h.scanTo (by simp [hphase]) henc htake hbit hrow (fun h => absurd h hshift) h.addr_lt (fun _ _ _ => rfl)
      (by simp [hhold, hend])).emit _
  unfold execSdBlankEnd nextIteration
  refine .next ?_
  split
  next hlt => exact moved (.inl rfl) h.sd_bit_lt hlt
  · split
    next hlt => exact moved (.inl rfl) hlt hrow
    · split
      next => exact moved (.inl rfl) (by decide) hrow
      next hp => exact moved (.inr ⟨rfl, hp, rfl, rfl⟩) (by decide) hrow

theorem execSdTake_answers (hphase : s.sdPhase = .take) : Answers Inv (execSdTake s) := by
  have hp := h.take_only_refresh hphase
  have htaken : Inv (takeIfNew s) :=
    { h with
      receive_takes := fun _ => rfl
      cand_ok := h.sets_kept rfl rfl rfl }
  unfold execSdTake
  split
  · exact .next (h.takeFrame hp hphase)
  · exact .next (htaken.scanTo (by simp [hphase]) (by simp) (by simp) h.sd_bit_lt h.sd_row_lt (by simp) h.addr_lt
      (by simp) (by simp))

theorem rfStep_answers : Answers Inv (rfStep s) := by
  unfold rfStep scanOp
  split
  next hphase => exact execSdBlank_answers h hphase
  next hphase => exact execSdShift_answers h hphase
  next hphase => exact execSdAddr_answers h hphase
  next hphase => exact execSdLatOn_answers h hphase
  next hphase => exact execSdLatOff_answers h hphase
  next hphase => exact execSdEnable_answers h hphase
  next hphase => exact execSdHold_answers h hphase
  next hphase => exact execSdBlankEnd_answers h hphase
  next hphase =>
    rw [h.take_only_refresh hphase]
    exact execSdTake_answers h hphase
  next hphase =>
    obtain ⟨hactive, hp⟩ := h.rf_in_pass.mp hphase
    rw [hp]
    exact encoderOp_answers h hactive

end

/-- Settles O55: the turn is one of three, and each answers with the invariant. -/
theorem invariantKeptAndNeverStops : Obligations.InvariantKeptAndNeverStops := by
  intro s h
  rw [step_of_configOk h.config_ok]
  cases (nextTurn s).1 with
  | rx => exact rxStep_answers h.nextTurn
  | rf => exact rfStep_answers h.nextTurn
  | env m => exact ⟨_, rfl, h.nextTurn.environmentMoves m⟩

end Sys2Proof.Machine
end

section
/-! PROOFS. The shared cell (R71, R72), the fields of a pixel (R64, R132), and the bounds of every write (R67). The
bounds come from two walks, said once for every predicate that the elementary updates keep: a link byte's operation, and
a turn of the scan driver. -/

namespace Sys2Proof.Machine

/-! ## The shared cell -/

/-- Settles O51: a draw is a member of its set, and only the shared buffer is drawn from. -/
theorem sharedReadDrawsACandidate : Obligations.SharedReadDrawsACandidate := by
  intro s i h
  refine ⟨?_, fun b hb => ?_⟩
  · have hread := mayRead_readValue (b := sharedBuf s.cfg) h
    rwa [MayRead, if_pos rfl] at hread
  · have hread := mayRead_readValue (b := b) h
    rwa [MayRead, if_neg hb] at hread

/-- Settles O52, from the byte and the sets after a store. -/
theorem sharedWriteAddsItsValue : Obligations.SharedWriteAddsItsValue := by
  intro s i v hi
  have hbyte : memGet (bufOf (storeByte s (sharedBuf s.cfg) i v) (sharedBuf s.cfg)) i = some v := by
    simp [memGet_storeByte]
  refine ⟨_, writeByte_of_lt hi, by simp [currentByte, hbyte, cellValue], fun j m => ?_⟩
  rw [setsExtendedOn_storeByte s i v j m]
  refine or_congr_right (and_congr_right ?_)
  rintro rfl
  rw [hbyte]

/-! ## Pixels -/

/-- Settles O33: a field is a shift and a remainder, and the two bytes of a pixel are appended. -/
theorem pixelFieldsAsNumbers : Obligations.PixelFieldsAsNumbers := by
  intro p b0 b1
  have hp := p.isLt
  have append : ∀ a b : Byte, (a ++ b).toNat = a.toNat * 256 + b.toNat := fun a b => by
    rw [BitVec.toNat_append, ← Nat.shiftLeft_add_eq_or_of_lt b.isLt, Nat.shiftLeft_eq]
  refine ⟨?_, ?_, ?_, append b1 b0, append b0 b1⟩
  · simp only [red5, BitVec.extractLsb'_toNat, Nat.shiftRight_eq_div_pow]
    omega
  · simp only [green6, BitVec.extractLsb'_toNat, Nat.shiftRight_eq_div_pow]
  · simp only [blue5, BitVec.extractLsb'_toNat, Nat.shiftRight_eq_div_pow]
    omega

/-! ## What the operation of a link byte keeps -/

/-- A predicate that the receive context's updates keep, but for the writes to `FB`: its registers and labels, a byte
stored inside `RXB`, and with `RECEIVE` the start of a pass. -/
structure ReceiveClosed (P : State → Prop) : Prop where
  registers : ∀ s len remaining offset new took l es, P s → P { s with
    rxLen := len, rawRemaining := remaining, rawOffset := offset, hfNew := new, taken := took, dec := l, trace := es }
  record : ∀ s i v, P s → i < s.cfg.rxcap → P (storeByte s .rxb i v)
  start : ∀ s, P s → s.cfg.encPlace = .receive →
    P { s with encActive := true, encR := 0, encX := 0, rxPhase := .encode }

namespace ReceiveClosed

variable {P : State → Prop} {s : State}

theorem postPublish (hP : ReceiveClosed P) (h : P s) : P (postPublish s) := by
  have taken : P (takeIfNew s) := hP.registers s _ _ _ _ _ _ _ h
  cases hp : s.cfg.encPlace with
  | refresh => rwa [postPublish_refresh hp]
  | receive =>
    cases hnew : s.hfNew with
    | true =>
      rw [postPublish_receive hp hnew]
      exact hP.start _ (hP.registers s _ _ _ false true _ _ h) hp
    | false => simpa [Machine.postPublish, hp, hnew] using taken

/-- A byte of a record is stored, or finds the buffer full (R203, R204, R246). -/
theorem storeOrOverflow (hP : ReceiveClosed P) {d : Byte} (h : P s) :
    EndsIn P (if s.rxLen < s.cfg.rxcap then storeRecord d s else .next (resetOverflow s)) := by
  split
  · exact (endsIn_writeByte_of_lt fun hi => hP.record s _ d h hi).andThen fun t ht =>
      hP.registers t _ _ _ _ _ _ _ ht
  · unfold resetOverflow
    split <;> exact hP.registers s _ _ _ _ _ _ _ h

/-- A raw byte is stored and counted, and the last one completes; one with broken accounts resets (R262, R263, R303). -/
theorem execRawData (hP : ReceiveClosed P) {d : Byte} (h : P s)
    (hraw : s.rawOffset < frameBytes s.cfg → P (storeByte s .fb s.rawOffset d)) : EndsIn P (execRawData d s) := by
  unfold Machine.execRawData
  split
  · refine (endsIn_writeByte_of_lt hraw).andThen fun t ht => ?_
    split
    · exact hP.postPublish (hP.registers t _ _ _ _ _ _ _ ht)
    · exact hP.registers t _ _ _ _ _ _ _ ht
  · exact hP.registers s _ _ _ _ _ _ _ h

/-- The operation of a link byte ends in `P` if its writes to `FB` do: a decode, or one raw byte (R200). -/
theorem exec (hP : ReceiveClosed P) {u : State} {d : Byte} {i : Instr} (hclass : LinkClass u d i) (h : P s)
    (hcobs : EndsIn P (execDecCobs s)) (htext : EndsIn P (execDecText s))
    (hraw : s.rawOffset < frameBytes s.cfg → P (storeByte s .fb s.rawOffset d)) : EndsIn P (exec i s) := by
  cases hclass with
  | cobsTerm =>
    refine hcobs.andThen fun t ht => ?_
    unfold afterCobs
    split
    · exact hP.postPublish (hP.registers t _ _ _ _ _ _ _ ht)
    · exact hP.registers t _ _ _ _ _ _ _ ht
  | textLf =>
    refine htext.andThen fun t ht => ?_
    unfold afterText
    split
    · exact hP.postPublish (hP.registers t _ _ _ _ _ _ _ ht)
    · exact hP.registers t _ _ _ _ _ _ _ ht
  | cobsData | textData => exact hP.storeOrOverflow h
  | rawData => exact hP.execRawData h hraw
  | textCr => exact h
  | textSent1 => exact hP.registers s _ _ _ _ _ _ _ h

end ReceiveClosed

/-! ## What a turn of the scan driver keeps -/

/-- A predicate that the scan driver's updates keep: its position, its levels, the handoff and the trace; a reader pass;
and with `REFRESH` the start of an encode pass. -/
structure ScanClosed (P : State → Prop) : Prop where
  position : ∀ s new took bit row phase col oe lat addr n es, P s → P { s with
    hfNew := new, taken := took, sdBit := bit, sdRow := row, sdPhase := phase, sdCol := col, oeLevel := oe,
    latLevel := lat, addrValue := addr, tick := n, trace := es }
  readerPass : ∀ s, P s → P (startReaderPass s)
  start : ∀ s, P s → s.cfg.encPlace = .refresh → P { s with encActive := true, encR := 0, encX := 0, cand := [] }

namespace ScanClosed

variable {P : State → Prop} {s : State}

theorem execSdBlank (hP : ScanClosed P) (h : P s) : EndsIn P (execSdBlank s) := by
  have moved := hP.position s s.hfNew s.taken s.sdBit s.sdRow .shift (s.cfg.width - 1) .disabled s.latLevel s.addrValue
    s.tick (s.trace ++ [.oe .disabled]) h
  unfold Machine.execSdBlank
  split
  · exact hP.readerPass _ moved
  · exact moved

theorem execSdShift (hP : ScanClosed P) (h : P s) : EndsIn P (execSdShift s) := by
  unfold Machine.execSdShift
  split
  · refine endsIn_readThen fun v => ?_
    rw [afterRead_eq]
    unfold nextColumn
    split <;> exact hP.position s _ _ _ _ _ _ _ _ _ _ _ h
  · exact h

theorem execSdBlankEnd (hP : ScanClosed P) (h : P s) : EndsIn P (execSdBlankEnd s) := by
  unfold Machine.execSdBlankEnd nextIteration
  split
  · exact hP.position s _ _ _ _ _ _ _ _ _ _ _ h
  · split
    · exact hP.position s _ _ _ _ _ _ _ _ _ _ _ h
    · split <;> exact hP.position s _ _ _ _ _ _ _ _ _ _ _ h

theorem execSdTake (hP : ScanClosed P) (h : P s) (hp : s.cfg.encPlace = .refresh) : EndsIn P (execSdTake s) := by
  unfold Machine.execSdTake
  split
  · have started : startPass (takeIfNew s) =
        { takeIfNew s with encActive := true, encR := 0, encX := 0, cand := [] } := by
      simp [startPass, hp, startReaderPass]
    rw [started]
    exact hP.start _ (hP.position s _ _ _ _ .enc _ _ _ _ _ _ h) hp
  · exact hP.position s _ _ _ _ _ _ _ _ _ _ _ h

/-- A turn of `RF` ends in `P` if the encoder's step does (R160). -/
theorem rfStep (hP : ScanClosed P) (h : P s)
    (hencoder : s.sdPhase = .enc → s.cfg.encPlace = .refresh → EndsIn P (runOp (encoderOp s) s)) :
    EndsIn P (rfStep s) := by
  unfold Machine.rfStep scanOp
  split
  case h_1 => exact hP.execSdBlank h
  case h_2 => exact hP.execSdShift h
  case h_8 => exact hP.execSdBlankEnd h
  case h_9 =>
    split
    · exact endsIn_fault
    · exact hP.execSdTake h ‹_›
  case h_10 =>
    split
    · exact endsIn_fault
    · exact hencoder ‹_› ‹_›
  all_goals exact hP.position s _ _ _ _ _ _ _ _ _ _ _ h

end ScanClosed

/-! ## No write outside a buffer -/

/-- The configuration, and every byte of a buffer at or above its length, as before (R67). -/
abbrev BytesOutsideKept (s t : State) : Prop :=
  t.cfg = s.cfg ∧ ∀ b a, bufLen s.cfg b ≤ a → memGet (bufOf t b) a = memGet (bufOf s b) a

theorem bytesOutsideKept_storeByte {s t : State} {b : Buf} {i : Nat} {v : Byte} (h : BytesOutsideKept s t)
    (hi : i < bufLen t.cfg b) : BytesOutsideKept s (storeByte t b i v) := by
  obtain ⟨hcfg, hkept⟩ := h
  refine ⟨hcfg, fun b' a ha => ?_⟩
  have apart : ¬ (b' = b ∧ a = i) := by
    rintro ⟨rfl, rfl⟩
    rw [hcfg] at hi
    omega
  rw [memGet_storeByte, if_neg apart, hkept b' a ha]

theorem bufOf_eq_of_same {s t : State} (hfb : t.fb = s.fb) (hbps : t.bps = s.bps) (hrxb : t.rxb = s.rxb) (b : Buf) :
    bufOf t b = bufOf s b := by
  cases b <;> assumption

/-- An update that leaves the buffers and the configuration alone. -/
theorem BytesOutsideKept.of_same {s t u : State} (h : BytesOutsideKept s t) (hcfg : u.cfg = t.cfg)
    (hbuf : ∀ b, bufOf u b = bufOf t b) : BytesOutsideKept s u :=
  ⟨hcfg.trans h.1, fun b a ha => by rw [hbuf, h.2 b a ha]⟩

section
variable (s : State)

theorem bytesOutsideKept_decodeClosed : DecodeClosed (BytesOutsideKept s) where
  store := fun _ _ _ h hi => bytesOutsideKept_storeByte h hi
  locals := fun _ _ h => h.of_same rfl (bufOf_eq_of_same rfl rfl rfl)
  label := fun _ _ h => h.of_same rfl (bufOf_eq_of_same rfl rfl rfl)

theorem bytesOutsideKept_passClosed : PassClosed (BytesOutsideKept s) where
  draw := fun _ _ h => h.of_same rfl (bufOf_eq_of_same rfl rfl rfl)
  store := fun _ _ _ h hi _ => bytesOutsideKept_storeByte h hi

theorem bytesOutsideKept_receiveClosed : ReceiveClosed (BytesOutsideKept s) where
  registers := fun _ _ _ _ _ _ _ _ h => h.of_same rfl (bufOf_eq_of_same rfl rfl rfl)
  record := fun _ _ _ h hi => bytesOutsideKept_storeByte h hi
  start := fun _ h _ => h.of_same rfl (bufOf_eq_of_same rfl rfl rfl)

theorem bytesOutsideKept_scanClosed : ScanClosed (BytesOutsideKept s) where
  position := fun _ _ _ _ _ _ _ _ _ _ _ _ h => h.of_same rfl (bufOf_eq_of_same rfl rfl rfl)
  readerPass := fun _ h => h.of_same rfl (bufOf_eq_of_same rfl rfl rfl)
  start := fun _ h _ => h.of_same rfl (bufOf_eq_of_same rfl rfl rfl)

end

theorem encoderOp_keepsBytesOutside {s t : State} (h : BytesOutsideKept s t) :
    EndsIn (BytesOutsideKept s) (runOp (encoderOp t) t) := by
  refine endsIn_encoderOp ((bytesOutsideKept_passClosed s).execEncPair h fun u hu => ?_) ?_
  · rw [nextPair_eq]
    exact hu.of_same rfl (bufOf_eq_of_same rfl rfl rfl)
  · unfold execEncEnd
    split <;> exact h.of_same rfl (bufOf_eq_of_same rfl rfl rfl)

theorem rxStep_keepsBytesOutside {s t : State} (h : BytesOutsideKept s t) :
    EndsIn (BytesOutsideKept s) (rxStep t) := by
  unfold rxStep
  split
  · unfold rxEncoderOp
    split
    · exact encoderOp_keepsBytesOutside h
    · exact endsIn_fault
  · split
    · exact h
    next d rest _ =>
      have hconsumed : BytesOutsideKept s (consumeLink d rest t) := h.of_same rfl (bufOf_eq_of_same rfl rfl rfl)
      exact (bytesOutsideKept_receiveClosed s).exec (linkOp_class t d) hconsumed
        ((bytesOutsideKept_decodeClosed s).execDecCobs hconsumed)
        ((bytesOutsideKept_decodeClosed s).execDecText hconsumed)
        fun hi => bytesOutsideKept_storeByte hconsumed hi

theorem turnStep_keepsBytesOutside {s t : State} (turn : Turn) (h : BytesOutsideKept s t) :
    EndsIn (BytesOutsideKept s) (turnStep turn t) := by
  cases turn with
  | rx => exact rxStep_keepsBytesOutside h
  | rf => exact (bytesOutsideKept_scanClosed s).rfStep h fun _ _ => encoderOp_keepsBytesOutside h
  | env m => exact h.of_same (environmentMoves_cfg m t) (by cases m <;> exact bufOf_eq_of_same rfl rfl rfl)

/-- Settles O56: a store answers only inside its buffer, and every other update leaves the buffers alone. -/
theorem noWriteOutsideABuffer : Obligations.NoWriteOutsideABuffer := by
  intro s t h
  by_cases hc : configOk s.cfg = true
  · have hturn : BytesOutsideKept s (nextTurn s).2 :=
      ⟨nextTurn_cfg s, fun b a _ => by unfold nextTurn; split <;> cases b <;> rfl⟩
    have hstep := turnStep_keepsBytesOutside (nextTurn s).1 hturn
    rw [← step_of_configOk hc, h] at hstep
    exact hstep.2
  · rw [step_of_not_configOk hc] at h
    cases h

end Sys2Proof.Machine
end

section
/-! PROOFS. A record decode as a sequence of outputs, each at the write position it then moves on (R207, R210, R243):
the walk over a decode for every predicate that outputs keep, and with it what a decode leaves (R72). -/

namespace Sys2Proof.Machine

/-! ## What the outputs of a decode keep -/

/-- A payload byte stored at the write position, the position moved on, the other locals as they come. -/
abbrev output (s : State) (v : Byte) (l : DecLocals) : State := { storeByte s .fb s.dec.o v with dec := l }

/-- A predicate that every output of a record decode keeps, and every update of its other locals, and a failure label.
Where `DecodeClosed` lets a byte go anywhere in `FB`, here it goes to the write position. -/
structure OutputClosed (P : State → Prop) : Prop where
  output : ∀ s v l, P s → s.dec.o < frameBytes s.cfg → l.o = s.dec.o + 1 → P (output s v l)
  locals : ∀ s l, P s → l.o = s.dec.o → P { s with dec := l }
  label : ∀ s k, P s → P (emit (.fail k) s)

namespace OutputClosed

variable {P : State → Prop} {s : State}

theorem raiseFail (hP : OutputClosed P) {k : FailKind} (h : P s) : P (raiseFail k s) :=
  hP.label _ k (hP.locals _ _ h rfl)

theorem outByte (hP : OutputClosed P) {v : Byte} (h : P s) : EndsIn P (outByte v s) := by
  by_cases ho : s.dec.o < frameBytes s.cfg
  · rw [outByte_of_lt ho]
    exact hP.output s v _ h ho rfl
  · rw [outByte_of_ge (Nat.le_of_not_lt ho)]
    exact hP.raiseFail h

theorem finishDecode (hP : OutputClosed P) (h : P s) : P (finishDecode s) := by
  unfold Machine.finishDecode
  split
  · exact hP.locals s _ h rfl
  · exact hP.raiseFail h

theorem copyLiterals (hP : OutputClosed P) {n : Nat} (h : P s) : EndsIn P (copyLiterals n s) := by
  induction n generalizing s with
  | zero => exact h
  | succ m ih =>
    by_cases ho : s.dec.o < frameBytes s.cfg
    · by_cases hi : s.dec.i < s.cfg.rxcap
      · rw [copyLiterals_succ hi ho]
        exact ih (hP.output s _ _ h ho rfl)
      · rw [Machine.copyLiterals, if_neg (Nat.not_le.mpr ho), readThen, if_neg (by exact hi)]
        exact endsIn_fault
    · rw [Machine.copyLiterals, if_pos (Nat.le_of_not_lt ho)]
      exact hP.raiseFail h

theorem implicitZero (hP : OutputClosed P) (h : P s) : EndsIn P (implicitZero s) := by
  unfold Machine.implicitZero
  split
  · exact hP.outByte h
  · exact h

theorem execCobsCode (hP : OutputClosed P) {c : Byte} (h : P s) : EndsIn P (execCobsCode c s) := by
  unfold Machine.execCobsCode
  split
  · exact hP.raiseFail h
  · exact (hP.copyLiterals h).unlessFailed fun t ht => hP.implicitZero ht

theorem execCobsCodeFF (hP : OutputClosed P) (h : P s) : EndsIn P (execCobsCodeFF s) := by
  unfold Machine.execCobsCodeFF
  split
  · exact hP.raiseFail h
  · exact hP.copyLiterals h

theorem runCode (hP : OutputClosed P) {c : Byte} (h : P s) : EndsIn P (runCode c s) := by
  unfold Machine.runCode
  split
  · exact hP.raiseFail h
  · split
    · exact hP.execCobsCodeFF h
    · exact hP.execCobsCode h

theorem cobsBlocks (hP : OutputClosed P) {fuel : Nat} (h : P s) : EndsIn P (cobsBlocks fuel s) := by
  induction fuel generalizing s with
  | zero => exact h
  | succ f ih =>
    unfold Machine.cobsBlocks
    split
    · refine endsIn_readThen fun c => ?_
      rw [afterRead_rxb]
      have advanced : P (advanceIn s) := hP.locals s _ h rfl
      exact (hP.runCode advanced).unlessFailed fun t ht => ih ht
    · exact h

/-- `DEC.COBS` from its first state (R210). -/
theorem execDecCobs (hP : OutputClosed P) (h : P (startDecode s)) : EndsIn P (execDecCobs s) :=
  (hP.cobsBlocks h).unlessFailed fun _ ht => hP.finishDecode ht

theorem outGroup (hP : OutputClosed P) (h : P s) : EndsIn P (outGroup s) :=
  (hP.outByte h).unlessFailed fun _ ht =>
    (hP.outByte ht).unlessFailed fun _ hu =>
      (hP.outByte hu).unlessFailed fun w hw => hP.locals w _ hw rfl

theorem acceptSextet (hP : OutputClosed P) {v : BitVec 6} (h : P s) : EndsIn P (acceptSextet v s) := by
  unfold Machine.acceptSextet
  split
  · exact hP.outGroup (hP.locals s _ h rfl)
  · exact hP.locals s _ h rfl

theorem runSym (hP : OutputClosed P) {d : Byte} (h : P s) : EndsIn P (runSym d s) := by
  unfold Machine.runSym
  iterate 5
    split
    · exact hP.acceptSextet h
  split <;> exact h

theorem textSymbols (hP : OutputClosed P) {m : Nat} (h : P s) : EndsIn P (textSymbols m s) := by
  induction m generalizing s with
  | zero => exact h
  | succ r ih =>
    refine endsIn_readThen fun d => ?_
    rw [afterRead_rxb]
    exact (hP.runSym h).unlessFailed fun t ht => ih (hP.locals t _ ht rfl)

theorem flushGroup (hP : OutputClosed P) (h : P s) : EndsIn P (flushGroup s) := by
  unfold Machine.flushGroup
  split
  · exact hP.outByte h
  · split
    · exact (hP.outByte h).unlessFailed fun _ ht => hP.outByte ht
    · exact h

/-- `DEC.TEXT` from its first state (R243). -/
theorem execDecText (hP : OutputClosed P) (h : P (startDecode s)) : EndsIn P (execDecText s) :=
  (hP.textSymbols h).unlessFailed fun _ ht =>
    (hP.flushGroup ht).unlessFailed fun _ hu => hP.finishDecode hu

end OutputClosed

/-! ## The sets after the outputs -/

theorem setsExtendedOn_congr {s t : State} {w w' : Nat → Prop} (h : SetsExtendedOn s t w) (hw : ∀ j, w j ↔ w' j) :
    SetsExtendedOn s t w' := by
  intro j m
  rw [h j m, hw j]

/-- Writes to `FB` after others, at indices where the second leaves what the first wrote (R72). -/
theorem setsAfterFrameWrites_trans {s t u : State} {w w' w'' : Nat → Prop} (h : SetsAfterFrameWrites s t w)
    (h' : SetsAfterFrameWrites t u w') (hcfg : t.cfg = s.cfg) (hkeep : ∀ j, w j → memGet u.fb j = memGet t.fb j)
    (hw : ∀ j, w j ∨ w' j ↔ w'' j) : SetsAfterFrameWrites s u w'' := by
  rw [SetsAfterFrameWrites, hcfg] at h'
  refine ⟨fun hp => ?_, fun hp => (h'.2 hp).trans (h.2 hp)⟩
  refine setsExtendedOn_congr (setsExtendedOn_trans (h.1 hp) (h'.1 hp) hcfg ?_) hw
  rwa [sharedBuf_of_refresh hp]

/-- A decode from write position `start` has changed only what a decode changes, and grown the sets by what it wrote. -/
theorem sameButDecode_outputClosed (s : State) (start : Nat) :
    OutputClosed fun t => start ≤ t.dec.o ∧ SameButDecode s t start where
  output := by
    rintro t v l ⟨hstart, hsame, hsets⟩ - hl
    have hcfg : t.cfg = s.cfg := by rw [hsame]
    refine ⟨by simp only; omega, ?_, ?_⟩
    · rw [hsame]
      rfl
    · refine setsAfterFrameWrites_trans hsets (setsAfterFrameWrites_storeByte t t.dec.o v) hcfg (fun j hj => ?_)
        fun j => by simp only; omega
      have hne : j ≠ t.dec.o := by omega
      simp [memGet_memSet, hne]
  locals := by
    rintro t l ⟨hstart, hsame, hsets⟩ hl
    rw [← hl] at hstart hsets
    refine ⟨hstart, ?_, hsets⟩
    rw [hsame]
  label := by
    rintro t k ⟨hstart, hsame, hsets⟩
    refine ⟨hstart, ?_, hsets⟩
    rw [hsame]
    rfl

/-- Nothing is written yet at the write position. -/
theorem sameButDecode_locals (s : State) (l : DecLocals) : SameButDecode s { s with dec := l } l.o := by
  refine ⟨rfl, fun _ j m => ?_, fun _ => rfl⟩
  exact ⟨.inl, fun h => h.elim id fun h => absurd h.1.2 (Nat.not_lt.mpr h.1.1)⟩

theorem EndsIn.imp {P Q : State → Prop} {r : Result} (h : EndsIn P r) (hPQ : ∀ t, P t → Q t) : EndsIn Q r := by
  cases r with
  | next t => exact hPQ t h
  | fault f => exact h
  | refused q => exact h

/-- `DEC.COBS` changes what a decode may change, from the start of `FB` (R210). -/
theorem execDecCobs_sameButDecode (s : State) : EndsIn (SameButDecode s · 0) (execDecCobs s) :=
  ((sameButDecode_outputClosed s 0).execDecCobs ⟨Nat.zero_le _, sameButDecode_locals s _⟩).imp fun _ h => h.2

/-- `DEC.TEXT` changes what a decode may change, from the start of `FB` (R243). -/
theorem execDecText_sameButDecode (s : State) : EndsIn (SameButDecode s · 0) (execDecText s) :=
  ((sameButDecode_outputClosed s 0).execDecText ⟨Nat.zero_le _, sameButDecode_locals s _⟩).imp fun _ h => h.2

/-- A block, from the write position it starts at (R213). -/
theorem execCobsCode_sameButDecode (c : Byte) (s : State) :
    EndsIn (SameButDecode s · s.dec.o) (execCobsCode c s) :=
  ((sameButDecode_outputClosed s s.dec.o).execCobsCode ⟨le_rfl, sameButDecode_locals s s.dec⟩).imp fun _ h => h.2

theorem execCobsCodeFF_sameButDecode (s : State) : EndsIn (SameButDecode s · s.dec.o) (execCobsCodeFF s) :=
  ((sameButDecode_outputClosed s s.dec.o).execCobsCodeFF ⟨le_rfl, sameButDecode_locals s s.dec⟩).imp fun _ h => h.2

/-- A valid symbol, from the write position its group starts at (R248). -/
theorem acceptSextet_sameButDecode (v : BitVec 6) (s : State) :
    EndsIn (SameButDecode s · s.dec.o) (acceptSextet v s) :=
  ((sameButDecode_outputClosed s s.dec.o).acceptSextet ⟨le_rfl, sameButDecode_locals s s.dec⟩).imp fun _ h => h.2

end Sys2Proof.Machine
end

section
/-! PROOFS. The blocks of a COBS record (R213, R214) and the groups of a text record (R243), each as the list of bytes
it outputs: all of them where they fit, and those that fit before the record fails where they do not (R207). -/

namespace Sys2Proof.Machine

/-! ## A list of bytes at the write position -/

/-- `bytes` written to `FB` from the write position, which has moved past them; the other locals may have moved too. -/
structure Outputs (bytes : List Byte) (s t : State) : Prop where
  others : t = { s with fb := t.fb, cand := t.cand, dec := t.dec }
  position : t.dec.o = s.dec.o + bytes.length
  written : ∀ j (h : j < bytes.length), memGet t.fb (s.dec.o + j) = some bytes[j]
  elsewhere : ∀ a, a < s.dec.o ∨ s.dec.o + bytes.length ≤ a → memGet t.fb a = memGet s.fb a

theorem Outputs.nil (s : State) : Outputs [] s s := ⟨rfl, rfl, nofun, fun _ _ => rfl⟩

theorem outputs_output (s : State) (v : Byte) {l : DecLocals} (hl : l.o = s.dec.o + 1) :
    Outputs [v] s (output s v l) where
  others := rfl
  position := hl
  written := fun j hj => by
    obtain rfl : j = 0 := by simpa using hj
    simp [memGet_memSet]
  elsewhere := fun a ha => by
    have hne : a ≠ s.dec.o := by simp only [List.length_singleton] at ha; omega
    simp [memGet_memSet, hne]

theorem Outputs.append {as bs : List Byte} {s t u : State} (h : Outputs as s t) (h' : Outputs bs t u) :
    Outputs (as ++ bs) s u where
  others := by
    rw [h'.others, h.others]
  position := by rw [h'.position, h.position, List.length_append, Nat.add_assoc]
  written := fun j hj => by
    rw [List.length_append] at hj
    by_cases hfirst : j < as.length
    · rw [h'.elsewhere _ (.inl (by rw [h.position]; omega)), h.written j hfirst, List.getElem_append_left hfirst]
    · have hsecond := h'.written (j - as.length) (by omega)
      rw [h.position, Nat.add_assoc, Nat.add_sub_cancel' (Nat.le_of_not_lt hfirst)] at hsecond
      rw [hsecond, List.getElem_append_right (Nat.le_of_not_lt hfirst)]
  elsewhere := fun a ha => by
    rw [List.length_append] at ha
    rw [h'.elsewhere a (by rw [h.position]; omega), h.elsewhere a (by omega)]

/-- What the other locals are at the start does not matter. -/
theorem Outputs.of_locals {bytes : List Byte} {s s' t : State} (h : Outputs bytes s' t)
    (hsame : s' = { s with dec := s'.dec }) (ho : s'.dec.o = s.dec.o) : Outputs bytes s t := by
  obtain ⟨others, position, written, elsewhere⟩ := h
  have hfb : s'.fb = s.fb := by rw [hsame]
  rw [ho] at position written elsewhere
  rw [hfb] at elsewhere
  exact ⟨by rw [others, hsame], position, written, elsewhere⟩

theorem Outputs.trace {bytes : List Byte} {s t : State} (h : Outputs bytes s t) : t.trace = s.trace := by rw [h.others]

theorem Outputs.cfg {bytes : List Byte} {s t : State} (h : Outputs bytes s t) : t.cfg = s.cfg := by rw [h.others]

/-! ## Blocks -/

/-- The literals of a block that starts at the read position. -/
def blockLiterals (s : State) (n : Nat) : List Byte := (List.range' s.dec.i n).map (currentByte s .rxb)

@[simp] theorem length_blockLiterals (s : State) (n : Nat) : (blockLiterals s n).length = n := by simp [blockLiterals]

@[simp] theorem getElem_blockLiterals {s : State} {n j : Nat} (h : j < (blockLiterals s n).length) :
    (blockLiterals s n)[j] = currentByte s .rxb (s.dec.i + j) := by simp [blockLiterals]

/-- Literals that the record and the frame have room for are copied, and the block goes on with the rest (R210). -/
theorem copyLiterals_of_fits {m : Nat} {s : State} (hi : s.dec.i + m ≤ s.cfg.rxcap)
    (ho : s.dec.o + m ≤ frameBytes s.cfg) :
    ∃ t, (∀ k, copyLiterals (m + k) s = copyLiterals k t) ∧ Outputs (blockLiterals s m) s t ∧
      t.dec = { s.dec with i := s.dec.i + m, o := s.dec.o + m } := by
  induction m generalizing s with
  | zero => exact ⟨s, fun k => by rw [Nat.zero_add], Outputs.nil s, rfl⟩
  | succ m ih =>
    have first := outputs_output s (currentByte s .rxb s.dec.i)
      (l := { s.dec with i := s.dec.i + 1, o := s.dec.o + 1 }) rfl
    obtain ⟨t, hcopy, houtputs, hdec⟩ := ih
      (s := output s (currentByte s .rxb s.dec.i) { s.dec with i := s.dec.i + 1, o := s.dec.o + 1 })
      (by simp only [storeByte_cfg]; omega) (by simp only [storeByte_cfg]; omega)
    refine ⟨t, fun k => ?_, first.append houtputs, ?_⟩
    · rw [Nat.succ_add_eq_add_succ, Nat.add_succ, copyLiterals_succ (by omega) (by omega), hcopy k]
    · rw [hdec]
      simp only [Nat.add_assoc, Nat.add_comm 1]

theorem decFailed_of_status {s t : State} (h : t.dec.status = s.dec.status) : decFailed t = decFailed s := by
  simp only [decFailed, h]

/-- A block whose literals and, with `zero`, one zero byte after them were output. -/
theorem blockCopied_of_outputs {s t : State} {len : Nat} {zero : Bool} (hothers : SameButDecode s t s.dec.o)
    (h : Outputs (blockLiterals s len ++ List.replicate zero.toNat 0x00) s t)
    (hdec : t.dec = { s.dec with i := s.dec.i + len, o := s.dec.o + len + zero.toNat }) :
    BlockCopied s t len zero where
  others := hothers
  no_event := h.trace
  read_position := by rw [hdec]
  write_position := by rw [hdec]
  rest_of_locals := by rw [hdec]
  literals := fun j hj => by
    have hwritten := h.written j (by simp; omega)
    rwa [List.getElem_append_left (by simpa using hj), getElem_blockLiterals] at hwritten
  zero_byte := by
    rintro rfl
    simpa using h.written len (by simp)
  elsewhere := fun a ha => h.elsewhere a (by simpa [Nat.add_assoc] using ha)

/-- A block that failed at the end of `FB`, after the literals up to there were output. -/
theorem blockOverflowed_of_outputs {s t : State} {m : Nat} (hm : s.dec.o + m = frameBytes s.cfg)
    (hothers : SameButDecode s (raiseFail .overflow t) s.dec.o) (h : Outputs (blockLiterals s m) s t)
    (hdec : t.dec = { s.dec with i := s.dec.i + m, o := s.dec.o + m }) :
    BlockOverflowed s (raiseFail .overflow t) where
  others := hothers
  event := by rw [raiseFail_trace, h.trace]
  locals := by
    rw [raiseFail_dec, hdec, ← hm, Nat.add_sub_cancel_left]
  literals := fun j hj => by
    have hwritten := h.written j (by simp; omega)
    rwa [getElem_blockLiterals] at hwritten
  elsewhere := fun a ha => h.elsewhere a (by simpa [hm] using ha)

/-- `COBS.CODE` with a block that stays in its record (R213). -/
theorem execCobsCode_of_fits {c : Byte} {s : State} (h : s.dec.i + (c.toNat - 1) ≤ s.dec.n) :
    exec (.cobsCode c) s = unlessFailed (copyLiterals (c.toNat - 1) s) implicitZero :=
  if_neg (Nat.not_lt.mpr h)

/-- `COBS.CODEFF` with a block that stays in its record (R214). -/
theorem execCobsCodeFF_of_fits {s : State} (h : s.dec.i + 254 ≤ s.dec.n) :
    exec .cobsCodeFF s = copyLiterals 254 s :=
  if_neg (Nat.not_lt.mpr h)

/-- What a walk says of an answer that is known. -/
theorem EndsIn.of_eq {P : State → Prop} {r : Result} {t : State} (h : EndsIn P r) (hr : r = .next t) : P t := by
  rwa [hr] at h

/-- After its literals a block has failed only if its record had, and then its zero is due or not (R99, R210). -/
theorem execCobsCode_of_literals {c : Byte} {s t : State} (h : s.dec.i + (c.toNat - 1) ≤ s.dec.n)
    (hfailed : decFailed s = false) (hcopy : copyLiterals (c.toNat - 1) s = .next t)
    (hdec : t.dec = { s.dec with i := s.dec.i + (c.toNat - 1), o := s.dec.o + (c.toNat - 1) }) :
    exec (.cobsCode c) s =
      if s.dec.i + (c.toNat - 1) < s.dec.n then outByte 0x00 t else .next t := by
  have hgoes : decFailed t = false := (decFailed_of_status (by rw [hdec])).trans hfailed
  rw [execCobsCode_of_fits h, hcopy, unlessFailed_next, hgoes, if_neg Bool.false_ne_true, implicitZero, hdec]

/-- Settles O15, from the literals of a block that fits and the zero after them. -/
theorem blocksCopyTheirLiterals : Obligations.BlocksCopyTheirLiterals := by
  refine ⟨fun s c hwf hfailed hn => ⟨fun hi ho => ?_, fun hi ho => ?_⟩, fun s _ hn hi ho => ?_⟩
  · have hc : 1 ≤ c.toNat := by
      simp only [Instr.wf, Byte.within, Bool.and_eq_true, decide_eq_true_eq] at hwf
      exact hwf.1
    obtain ⟨t, hcopy, houtputs, hdec⟩ := copyLiterals_of_fits (m := c.toNat - 1) (s := s) (by omega) (by omega)
    have hroom : t.dec.o < frameBytes t.cfg := by
      rw [houtputs.cfg, hdec]
      simp only
      omega
    have hexec := (execCobsCode_of_literals hi.le hfailed (hcopy 0) hdec).trans
      ((if_pos hi).trans (outByte_of_lt hroom))
    refine ⟨_, hexec, blockCopied_of_outputs ((execCobsCode_sameButDecode c s).of_eq hexec)
      (houtputs.append (outputs_output t 0x00 rfl)) ?_⟩
    simp only [hdec]
    rfl
  · obtain ⟨t, hcopy, houtputs, hdec⟩ := copyLiterals_of_fits (m := c.toNat - 1) (s := s) (by omega) ho
    have hexec := (execCobsCode_of_literals hi.le hfailed (hcopy 0) hdec).trans (if_neg (by omega))
    refine ⟨_, hexec, blockCopied_of_outputs ((execCobsCode_sameButDecode c s).of_eq hexec) ?_ hdec⟩
    simpa using houtputs
  · obtain ⟨t, hcopy, houtputs, hdec⟩ := copyLiterals_of_fits (m := 254) (s := s) (by omega) ho
    have hexec := (execCobsCodeFF_of_fits hi).trans (hcopy 0)
    refine ⟨_, hexec, blockCopied_of_outputs ((execCobsCodeFF_sameButDecode s).of_eq hexec) ?_ hdec⟩
    simpa using houtputs

/-- Literals that pass the end of `FB` fail the record there (R207, R210). -/
theorem copyLiterals_of_overflow {m : Nat} {s : State} (hi : s.dec.i + m ≤ s.cfg.rxcap)
    (ho : s.dec.o ≤ frameBytes s.cfg) (hm : frameBytes s.cfg < s.dec.o + m) :
    ∃ t, copyLiterals m s = .next (raiseFail .overflow t) ∧
      Outputs (blockLiterals s (frameBytes s.cfg - s.dec.o)) s t ∧
      t.dec = { s.dec with
        i := s.dec.i + (frameBytes s.cfg - s.dec.o), o := s.dec.o + (frameBytes s.cfg - s.dec.o) } := by
  obtain ⟨t, hcopy, houtputs, hdec⟩ :=
    copyLiterals_of_fits (m := frameBytes s.cfg - s.dec.o) (s := s) (by omega) (by omega)
  obtain ⟨k, hk⟩ : ∃ k, m = frameBytes s.cfg - s.dec.o + (k + 1) := ⟨m - (frameBytes s.cfg - s.dec.o) - 1, by omega⟩
  refine ⟨t, ?_, houtputs, hdec⟩
  rw [hk, hcopy, copyLiterals, if_pos]
  rw [houtputs.cfg, hdec]
  simp only
  omega

/-- Settles O16: a literal or the implicit zero finds the write position at the end of `FB`. -/
theorem oversizedBlockFailsOverflow : Obligations.OversizedBlockFailsOverflow := by
  intro s c hfailed hn ho
  have fits : s.dec.o + (frameBytes s.cfg - s.dec.o) = frameBytes s.cfg := by omega
  refine ⟨fun hi hm => ?_, fun hi hm => ?_, fun hi hm => ?_⟩
  · obtain ⟨t, hcopy, houtputs, hdec⟩ := copyLiterals_of_overflow (by omega) ho hm
    have hexec : exec (.cobsCode c) s = .next (raiseFail .overflow t) := by
      rw [execCobsCode_of_fits hi, hcopy, unlessFailed_next, decFailed_raiseFail, if_pos rfl]
    exact ⟨_, hexec, blockOverflowed_of_outputs fits ((execCobsCode_sameButDecode c s).of_eq hexec) houtputs hdec⟩
  · obtain ⟨t, hcopy, houtputs, hdec⟩ := copyLiterals_of_fits (m := c.toNat - 1) (s := s) (by omega) hm.le
    have hfull : frameBytes t.cfg ≤ t.dec.o := by
      rw [houtputs.cfg, hdec]
      exact hm.ge
    have hexec := (execCobsCode_of_literals hi.le hfailed (hcopy 0) hdec).trans
      ((if_pos hi).trans (outByte_of_ge hfull))
    exact ⟨_, hexec, blockOverflowed_of_outputs hm ((execCobsCode_sameButDecode c s).of_eq hexec) houtputs hdec⟩
  · obtain ⟨t, hcopy, houtputs, hdec⟩ := copyLiterals_of_overflow (by omega) ho hm
    have hexec := (execCobsCodeFF_of_fits hi).trans hcopy
    exact ⟨_, hexec, blockOverflowed_of_outputs fits ((execCobsCodeFF_sameButDecode s).of_eq hexec) houtputs hdec⟩

/-! ## Groups -/

/-- The three bytes of a whole group, the most significant first (R104). -/
def groupBytes (acc : Nat) : List Byte :=
  [BitVec.ofNat 8 (acc / 2 ^ 16), BitVec.ofNat 8 (acc / 2 ^ 8), BitVec.ofNat 8 acc]

@[simp] theorem length_groupBytes (acc : Nat) : (groupBytes acc).length = 3 := rfl

/-- A payload byte that fits, in a record that has not failed, and what comes after it. -/
theorem unlessFailed_outByte_of_lt {v : Byte} {s : State} (k : State → Result) (hfailed : decFailed s = false)
    (ho : s.dec.o < frameBytes s.cfg) :
    unlessFailed (outByte v s) k = k (output s v { s.dec with o := s.dec.o + 1 }) := by
  have hgoes : decFailed (output s v { s.dec with o := s.dec.o + 1 }) = false := hfailed
  rw [outByte_of_lt ho, unlessFailed_next, hgoes, if_neg Bool.false_ne_true]

/-- A payload byte that does not fit is the last of its record. -/
theorem unlessFailed_outByte_of_ge {v : Byte} {s : State} (k : State → Result) (ho : frameBytes s.cfg ≤ s.dec.o) :
    unlessFailed (outByte v s) k = .next (raiseFail .overflow s) := by
  rw [outByte_of_ge ho, unlessFailed_next, decFailed_raiseFail, if_pos rfl]

/-- Bytes output one after another, and what comes after them (R243). -/
def outBytes (bytes : List Byte) (k : State → Result) (s : State) : Result :=
  match bytes with
  | [] => k s
  | v :: vs => unlessFailed (outByte v s) (outBytes vs k)

theorem outBytes_of_fits {bytes : List Byte} {s : State} (k : State → Result) (hfailed : decFailed s = false)
    (ho : s.dec.o + bytes.length ≤ frameBytes s.cfg) :
    ∃ t, outBytes bytes k s = k t ∧ Outputs bytes s t ∧ t.dec = { s.dec with o := s.dec.o + bytes.length } := by
  induction bytes generalizing s with
  | nil => exact ⟨s, rfl, Outputs.nil s, rfl⟩
  | cons v vs ih =>
    rw [List.length_cons] at ho
    have first := outputs_output s v (l := { s.dec with o := s.dec.o + 1 }) rfl
    obtain ⟨t, hout, houtputs, hdec⟩ := ih (s := output s v { s.dec with o := s.dec.o + 1 }) hfailed
      (by simp only [storeByte_cfg]; omega)
    refine ⟨t, ?_, first.append houtputs, ?_⟩
    · rw [outBytes, unlessFailed_outByte_of_lt _ hfailed (by omega), hout]
    · rw [hdec]
      simp only [List.length_cons, Nat.add_assoc, Nat.add_comm 1]

/-- Bytes that pass the end of `FB` fail the record at the first that does not fit (R207, R243). -/
theorem outBytes_of_overflow {bytes : List Byte} {s : State} (k : State → Result) (hfailed : decFailed s = false)
    (ho : s.dec.o ≤ frameBytes s.cfg) (hlong : frameBytes s.cfg < s.dec.o + bytes.length) :
    ∃ t, outBytes bytes k s = .next (raiseFail .overflow t) ∧
      Outputs (bytes.take (frameBytes s.cfg - s.dec.o)) s t ∧ t.dec = { s.dec with o := frameBytes s.cfg } := by
  induction bytes generalizing s with
  | nil => exact absurd hlong (Nat.not_lt.mpr ho)
  | cons v vs ih =>
    rcases Nat.lt_or_eq_of_le ho with hlt | heq
    · rw [List.length_cons] at hlong
      have first := outputs_output s v (l := { s.dec with o := s.dec.o + 1 }) rfl
      obtain ⟨t, hout, houtputs, hdec⟩ := ih (s := output s v { s.dec with o := s.dec.o + 1 }) hfailed hlt
        (by simp only [storeByte_cfg]; omega)
      have hroom : frameBytes s.cfg - s.dec.o = frameBytes s.cfg - (s.dec.o + 1) + 1 := by omega
      refine ⟨t, ?_, ?_, hdec⟩
      · rw [outBytes, unlessFailed_outByte_of_lt _ hfailed hlt, hout]
      · rw [hroom, List.take_succ_cons]
        exact first.append houtputs
    · refine ⟨s, unlessFailed_outByte_of_ge _ heq.ge, ?_, by rw [← heq]⟩
      rw [heq, Nat.sub_self, List.take_zero]
      exact Outputs.nil s

/-- An output leaves the accumulator alone. -/
theorem acc_of_outByte {v : Byte} {s t : State} (h : outByte v s = .next t) : t.dec.acc = s.dec.acc := by
  by_cases ho : s.dec.o < frameBytes s.cfg
  · rw [outByte_of_lt ho] at h
    cases h
    rfl
  · rw [outByte_of_ge (Nat.le_of_not_lt ho)] at h
    cases h
    rfl

theorem unlessFailed_outByte_congr {v : Byte} {s : State} {k k' : State → Result}
    (h : ∀ t, t.dec.acc = s.dec.acc → k t = k' t) : unlessFailed (outByte v s) k = unlessFailed (outByte v s) k' := by
  obtain ⟨t, ht⟩ := outByte_completes v s
  rw [ht, unlessFailed_next, unlessFailed_next, h t (acc_of_outByte ht)]

/-- A whole group outputs its bytes and is cleared (R104, R243). -/
theorem outGroup_eq (s : State) :
    outGroup s = outBytes (groupBytes s.dec.acc.toNat) (fun t => .next (clearGroup t)) s := by
  have byte : ∀ k, s.dec.acc.extractLsb' k 8 = BitVec.ofNat 8 (s.dec.acc.toNat / 2 ^ k) := fun k => by
    rw [BitVec.extractLsb', Nat.shiftRight_eq_div_pow]
  have bytes : groupBytes s.dec.acc.toNat =
      [s.dec.acc.extractLsb' 16 8, s.dec.acc.extractLsb' 8 8, s.dec.acc.extractLsb' 0 8] := by
    simp only [groupBytes, byte, pow_zero, Nat.div_one]
  rw [bytes]
  refine unlessFailed_outByte_congr fun t ht => ?_
  rw [ht]
  refine unlessFailed_outByte_congr fun u hu => ?_
  rw [hu, ht]
  rfl

/-! ## The fourth symbol -/

/-- A symbol of a run of the alphabet has its place in the run, moved on by the run's first value (R241). -/
theorem sextet_of_run {d : Byte} {first : Nat} (value : Nat) (h : first ≤ d.toNat) :
    (d - BitVec.ofNat 8 first + BitVec.ofNat 8 value).setWidth 6 = BitVec.ofNat 6 (d.toNat - first + value) := by
  have hd := d.isLt
  apply BitVec.eq_of_toNat_eq
  simp only [BitVec.toNat_setWidth, BitVec.toNat_add, BitVec.toNat_sub, BitVec.toNat_ofNat]
  omega

/-- A valid symbol adds its sextet, whatever its class (R248 to R252). -/
theorem exec_of_sextet {i : Instr} {v : Nat} (hwf : i.wf = true) (hv : sextetOf i = some v) (s : State) :
    exec i s = acceptSextet (BitVec.ofNat 6 v) s ∧ v < 64 := by
  have range : ∀ {d : Byte} {lo hi : Nat}, d.within lo hi = true → lo ≤ d.toNat ∧ d.toNat ≤ hi := by
    simp [Byte.within]
  cases i with
  | b64Upper d =>
    obtain ⟨hlo, hhi⟩ := range hwf
    cases hv
    have hsextet := sextet_of_run 0 hlo
    rw [BitVec.add_zero] at hsextet
    exact ⟨congrArg (acceptSextet · s) hsextet, by omega⟩
  | b64Lower d =>
    obtain ⟨hlo, hhi⟩ := range hwf
    cases hv
    exact ⟨congrArg (acceptSextet · s) (sextet_of_run 26 hlo), by omega⟩
  | b64Digit d =>
    obtain ⟨hlo, hhi⟩ := range hwf
    cases hv
    exact ⟨congrArg (acceptSextet · s) (sextet_of_run 52 hlo), by omega⟩
  | b64Plus | b64Slash =>
    cases hv
    exact ⟨rfl, by decide⟩
  | _ => cases hv

/-- The accumulator after a sextet, as a number (R243). -/
theorem toNat_acc_pushSextet {v : Nat} (hv : v < 64) (s : State) :
    (pushSextet (BitVec.ofNat 6 v) s).dec.acc.toNat = accAfter s v := by
  have hlow : v % 2 ^ 24 = v := Nat.mod_eq_of_lt (by omega)
  calc (s.dec.acc <<< 6 ||| (BitVec.ofNat 6 v).setWidth 24).toNat
      = s.dec.acc.toNat <<< 6 % 2 ^ 24 ||| v % 2 ^ 24 := by
        rw [BitVec.toNat_or, BitVec.toNat_shiftLeft, BitVec.toNat_setWidth, BitVec.toNat_ofNat, Nat.mod_eq_of_lt hv]
    _ = (s.dec.acc.toNat * 64 + v) % 2 ^ 24 := by
        rw [← Nat.or_mod_two_pow, ← Nat.shiftLeft_add_eq_or_of_lt (i := 6) hv, Nat.shiftLeft_eq]

/-- The fourth symbol outputs its group (R243). -/
theorem exec_fourth_sextet {i : Instr} {v : Nat} {s : State} (hwf : i.wf = true) (hv : sextetOf i = some v)
    (hk : s.dec.k = 3) : exec i s =
      outBytes (groupBytes (accAfter s v)) (fun t => .next (clearGroup t)) (pushSextet (BitVec.ofNat 6 v) s) := by
  obtain ⟨hexec, hlt⟩ := exec_of_sextet hwf hv s
  have hfull : (pushSextet (BitVec.ofNat 6 v) s).dec.k = 4 := congrArg (· + 1) hk
  rw [hexec, acceptSextet, if_pos hfull, outGroup_eq, toNat_acc_pushSextet hlt]

theorem exec_sextet_sameButDecode {i : Instr} {v : Nat} {s : State} (hwf : i.wf = true) (hv : sextetOf i = some v) :
    EndsIn (SameButDecode s · s.dec.o) (exec i s) := by
  rw [(exec_of_sextet hwf hv s).1]
  exact acceptSextet_sameButDecode _ s

/-- Settles O23: the group's three bytes go to the write position, and the group is cleared. -/
theorem fourthSymbolOutputsGroup : Obligations.FourthSymbolOutputsGroup := by
  intro s i v hwf hv hk hfailed ho
  obtain ⟨t, hout, houtputs, hdec⟩ := outBytes_of_fits (bytes := groupBytes (accAfter s v))
    (fun t => .next (clearGroup t)) (s := pushSextet (BitVec.ofNat 6 v) s) hfailed ho
  have hexec := (exec_fourth_sextet hwf hv hk).trans hout
  replace houtputs := houtputs.of_locals (s := s) rfl rfl
  refine ⟨clearGroup t, hexec, (exec_sextet_sameButDecode hwf hv).of_eq hexec, houtputs.trace, ?_,
    houtputs.written 0 (by simp), houtputs.written 1 (by simp), houtputs.written 2 (by simp), houtputs.elsewhere⟩
  rw [clearGroup_dec, hdec]
  rfl

/-- Settles O24: the bytes of the group that fit go to the write position, and the next one fails the record. -/
theorem oversizedGroupFailsOverflow : Obligations.OversizedGroupFailsOverflow := by
  intro s i v hwf hv hk hfailed ho hlong
  obtain ⟨t, hout, houtputs, hdec⟩ := outBytes_of_overflow (bytes := groupBytes (accAfter s v))
    (fun t => .next (clearGroup t)) (s := pushSextet (BitVec.ofNat 6 v) s) hfailed ho hlong
  have hexec := (exec_fourth_sextet hwf hv hk).trans hout
  replace houtputs : Outputs ((groupBytes (accAfter s v)).take (frameBytes s.cfg - s.dec.o)) s t :=
    houtputs.of_locals rfl rfl
  have hlength : ((groupBytes (accAfter s v)).take (frameBytes s.cfg - s.dec.o)).length =
      frameBytes s.cfg - s.dec.o := by
    rw [List.length_take, length_groupBytes]
    omega
  refine ⟨_, hexec, (exec_sextet_sameButDecode hwf hv).of_eq hexec, by rw [raiseFail_trace, houtputs.trace], rfl,
    congrArg DecLocals.o hdec, fun hfirst => ?_, fun hsecond => ?_, fun a ha => houtputs.elsewhere a ?_⟩
  · rw [raiseFail_fb, ← Nat.add_zero s.dec.o, houtputs.written 0 (by omega), List.getElem_take]
    rfl
  · rw [raiseFail_fb, houtputs.written 1 (by omega), List.getElem_take]
    rfl
  · omega

end Sys2Proof.Machine
end

section
/-! PROOFS. An encode pass over a frame that no other agent writes (R138, R143): what one pair adds to the planes held
so far, and the pairs of a pass run back to back. -/

namespace Sys2Proof.Machine

/-! ## Reading a quiet frame -/

/-- The set of a byte of a quiet frame is not drawn from: `FB` is not shared, or the set is its byte (R71, R72). -/
theorem readValue_fb_of_quiet {s : State} (h : FrameQuiet s) (i : Nat) : readValue s .fb i = currentByte s .fb i := by
  rcases h with hp | hcand
  · simp [readValue, sharedBuf_of_receive hp]
  · have hset : candOf s i = [memGet (bufOf s (sharedBuf s.cfg)) i] := candOf_of_unlisted (by rw [hcand]; rfl)
    by_cases hb : Buf.fb = sharedBuf s.cfg
    · simp [readValue, hset, candPick, ← hb]
    · simp [readValue, hb]

theorem afterRead_fb_of_quiet {s : State} (h : FrameQuiet s) (i : Nat) : afterRead s .fb i = s := by
  rcases h with hp | hcand
  · exact afterRead_fb_of_receive hp
  · have hset : candOf s i = [memGet (bufOf s (sharedBuf s.cfg)) i] := candOf_of_unlisted (by rw [hcand]; rfl)
    simp [afterRead, hset]

/-- A pixel of a quiet frame is read as it stands (R64). -/
theorem readPixelThen_of_quiet {s : State} {x y : Nat} (k : Pixel → State → Result) (h : FrameQuiet s)
    (hin : 2 * pixelIndex s.cfg x y + 1 < frameBytes s.cfg) :
    readPixelThen s x y k = k (currentPixel s x y) s := by
  rw [readPixelThen, readThen_of_lt (show _ < frameBytes s.cfg by omega), afterRead_fb_of_quiet h,
    readThen_of_lt (show _ < frameBytes s.cfg from hin), afterRead_fb_of_quiet h, readValue_fb_of_quiet h,
    readValue_fb_of_quiet h, currentPixel]

/-- The six sub-pixel values of a position, from the current frame (R138). -/
def pairLevels (s : State) (r x : Nat) : List (BitVec 6) :=
  subPixels s.cfg.gamma (currentPixel s x r) (currentPixel s x (r + rows s.cfg))

/-- The planes of the pair at the position of `s` have been written, and nothing else (R141). -/
abbrev PairWritten (s z : State) : Prop :=
  PlanesWritten s.encR s.encX (pairLevels s s.encR s.encX) (List.range depthBits) s z

/-- A pair step over a quiet frame writes the planes of its two pixels and moves on (R141). -/
theorem execEncPair_of_quiet {s : State} (h : FrameQuiet s) (hr : s.encR < rows s.cfg) (hx : s.encX < s.cfg.width) :
    ∃ z, execEncPair s = .next (nextPair z) ∧ PairWritten s z := by
  have hheight : s.encR + rows s.cfg < s.cfg.height := by
    unfold rows at *
    omega
  obtain ⟨z, hz, hplanes⟩ := writePlanes_completes (pairLevels s s.encR s.encX) hr hx
    (fun b hb => List.mem_range.mp hb) List.nodup_range
  refine ⟨z, ?_, hplanes⟩
  rw [execEncPair, readPixelThen_of_quiet _ h (pixelIndex_in_frame hx (by omega)),
    readPixelThen_of_quiet _ h (pixelIndex_in_frame hx hheight)]
  exact congrArg (andThen · fun z => .next (nextPair z)) hz

/-! ## The order of a pass -/

@[simp] theorem nextPair_fb (s : State) : (nextPair s).fb = s.fb := by rw [nextPair_eq]
@[simp] theorem nextPair_bps (s : State) : (nextPair s).bps = s.bps := by rw [nextPair_eq]
@[simp] theorem nextPair_cand (s : State) : (nextPair s).cand = s.cand := by rw [nextPair_eq]
@[simp] theorem nextPair_tick (s : State) : (nextPair s).tick = s.tick := by rw [nextPair_eq]

@[simp] theorem bufOf_nextPair (s : State) (b : Buf) : bufOf (nextPair s) b = bufOf s b := by
  rw [nextPair_eq]
  cases b <;> rfl

@[simp] theorem candOf_nextPair (s : State) (j : Nat) : candOf (nextPair s) j = candOf s j := by simp [candOf]

/-- Position `(r, x)` comes before the pass's own, rows outer and columns inner (R141). -/
abbrev BeforePosition (s : State) (r x : Nat) : Prop := r < s.encR ∨ (r = s.encR ∧ x < s.encX)

theorem not_beforePosition_of_origin {s : State} (hr : s.encR = 0) (hx : s.encX = 0) (r x : Nat) :
    ¬ BeforePosition s r x := by
  simp only [BeforePosition, hr, hx]
  omega

theorem beforePosition_nextPair {s : State} {r x : Nat} (hin : s.encX < s.cfg.width) (hx : x < s.cfg.width) :
    BeforePosition (nextPair s) r x ↔ BeforePosition s r x ∨ (r = s.encR ∧ x = s.encX) := by
  rw [nextPair_eq]
  simp only [BeforePosition]
  split <;> omega

/-- The place of a position in the order of a pass. -/
def pairNumber (s : State) : Nat := s.encR * s.cfg.width + s.encX

theorem pairNumber_nextPair {s : State} (hx : s.encX < s.cfg.width) :
    pairNumber (nextPair s) = pairNumber s + 1 ∧ (nextPair s).encX < s.cfg.width := by
  unfold pairNumber nextPair
  split
  next hlt => exact ⟨rfl, hlt⟩
  next hlt =>
    refine ⟨?_, by simp only; omega⟩
    simp only [Nat.succ_mul]
    omega

/-- The row of a plane byte, from its index (R62). -/
theorem row_of_bpi {c : Config} {r b x : Nat} (hb : b < depthBits) (hx : x < c.width) :
    bpi c r b x / c.width / depthBits = r := by
  have hdiv : bpi c r b x / c.width = r * depthBits + b := by
    rw [bpi, Nat.mul_comm, Nat.mul_add_div (by omega), Nat.div_eq_of_lt hx, Nat.add_zero]
  rw [hdiv, Nat.mul_comm, Nat.mul_add_div (by omega), Nat.div_eq_of_lt hb, Nat.add_zero]

theorem column_of_bpi {c : Config} {r b x : Nat} (hx : x < c.width) : bpi c r b x % c.width = x := by
  rw [bpi, Nat.mul_comm, Nat.mul_add_mod, Nat.mod_eq_of_lt hx]

/-- The plane bytes of a position are those of its row and its column. -/
theorem eq_bpi_iff {c : Config} {r x j : Nat} (hx : x < c.width) :
    (∃ b ∈ List.range depthBits, j = bpi c r b x) ↔ j / c.width / depthBits = r ∧ j % c.width = x := by
  constructor
  · rintro ⟨b, hb, rfl⟩
    exact ⟨row_of_bpi (List.mem_range.mp hb) hx, column_of_bpi hx⟩
  · rintro ⟨rfl, rfl⟩
    refine ⟨j / c.width % depthBits, List.mem_range.mpr (Nat.mod_lt _ (by decide)), ?_⟩
    rw [bpi, Nat.div_add_mod', Nat.div_add_mod']

/-! ## The planes held so far -/

/-- `ENCODE(FB)` depends on `FB` and the configuration (R138). -/
theorem encodedByte_of_same {s t : State} (hcfg : t.cfg = s.cfg) (hfb : t.fb = s.fb) (r b x : Nat) :
    encodedByte t r b x = encodedByte s r b x := by
  simp only [encodedByte, currentPixel, currentByte, bufOf, hcfg, hfb]

/-- A plane byte that is as before holds `ENCODE(FB)` as before. -/
theorem holdsEncoding_of_same {s t : State} {r b x : Nat} (h : HoldsEncoding s r b x) (hcfg : t.cfg = s.cfg)
    (hfb : t.fb = s.fb) (hbyte : memGet t.bps (bpi s.cfg r b x) = memGet s.bps (bpi s.cfg r b x)) :
    HoldsEncoding t r b x := by
  obtain ⟨w, hw, hvalue⟩ := h
  exact ⟨w, by rw [hcfg, hbyte, hw], hvalue.trans (encodedByte_of_same hcfg hfb r b x).symm⟩

/-- Every pair before the position holds `ENCODE(FB)` (R138, R141). -/
abbrev PairsHeld (s : State) : Prop :=
  ∀ r b x, r < rows s.cfg → b < 6 → x < s.cfg.width → BeforePosition s r x → HoldsEncoding s r b x

section
variable {s z : State} (hz : PairWritten s z)
include hz

theorem PairWritten.cfg : z.cfg = s.cfg := by rw [hz.others]
theorem PairWritten.fb : z.fb = s.fb := by rw [hz.others]
theorem PairWritten.tick : z.tick = s.tick := by rw [hz.others]
theorem PairWritten.encActive : z.encActive = s.encActive := by rw [hz.others]
theorem PairWritten.encR : z.encR = s.encR := by rw [hz.others]
theorem PairWritten.encX : z.encX = s.encX := by rw [hz.others]

/-- What a pair before the position wrote is left alone. -/
theorem PairWritten.kept (hin : s.encX < s.cfg.width) {j : Nat}
    (hbefore : BeforePosition s (j / s.cfg.width / depthBits) (j % s.cfg.width)) :
    memGet z.bps j = memGet s.bps j := by
  refine hz.elsewhere j fun b hb heq => ?_
  have hindex := (eq_bpi_iff hin).mp ⟨b, hb, heq⟩
  simp only [BeforePosition] at hbefore
  omega

theorem PairWritten.before_next {r x : Nat} (hin : s.encX < s.cfg.width) (hx : x < s.cfg.width) :
    BeforePosition (nextPair z) r x ↔ BeforePosition s r x ∨ (r = s.encR ∧ x = s.encX) := by
  have hnext := beforePosition_nextPair (s := z) (r := r) (x := x) (by rwa [hz.cfg, hz.encX]) (by rwa [hz.cfg])
  rwa [BeforePosition.eq_def z, hz.encR, hz.encX] at hnext

/-- A pair adds its own planes to those held. -/
theorem PairWritten.pairsHeld (hin : s.encX < s.cfg.width) (h : PairsHeld s) : PairsHeld (nextPair z) := by
  intro r b x hr hb hx hbefore
  have hcfg : (nextPair z).cfg = s.cfg := by rw [nextPair_cfg, hz.cfg]
  have hfb : (nextPair z).fb = s.fb := by rw [nextPair_fb, hz.fb]
  rw [hcfg] at hr hx
  rcases (hz.before_next hin hx).mp hbefore with hbefore | ⟨rfl, rfl⟩
  · refine holdsEncoding_of_same (h r b x hr hb hx hbefore) hcfg hfb ?_
    rw [nextPair_bps]
    exact hz.kept hin (by rwa [row_of_bpi hb hx, column_of_bpi hx])
  · refine ⟨_, ?_, (planeByte_subPixels ..).trans (encodedByte_of_same hcfg hfb _ b _).symm⟩
    rw [nextPair_bps, hcfg]
    exact hz.written b (List.mem_range.mpr hb)

theorem PairWritten.frameQuiet (h : FrameQuiet s) : FrameQuiet (nextPair z) := by
  rw [FrameQuiet, nextPair_cfg, nextPair_cand, hz.cfg]
  cases hp : s.cfg.encPlace with
  | receive => exact .inl rfl
  | refresh => exact .inr ((hz.sets.2 hp).trans (h.resolve_left (by simp [hp])))

end

/-! ## A pass run back to back -/

/-- Writes to `BPS` after others, at indices where the second leaves what the first wrote (R72). -/
theorem setsAfterPlaneWrites_trans {s t u : State} {w w' w'' : Nat → Prop} (h : SetsAfterPlaneWrites s t w)
    (h' : SetsAfterPlaneWrites t u w') (hcfg : t.cfg = s.cfg) (hkeep : ∀ j, w j → memGet u.bps j = memGet t.bps j)
    (hw : ∀ j, w j ∨ w' j ↔ w'' j) : SetsAfterPlaneWrites s u w'' := by
  rw [SetsAfterPlaneWrites, hcfg] at h'
  refine ⟨fun hp => ?_, fun hp => (h'.2 hp).trans (h.2 hp)⟩
  refine setsExtendedOn_congr (setsExtendedOn_trans (h.1 hp) (h'.1 hp) hcfg ?_) hw
  rwa [sharedBuf_of_receive hp]

/-- The index of a plane byte of a pair before the position. -/
abbrev IndexBefore (t : State) (j : Nat) : Prop := BeforePosition t (j / t.cfg.width / depthBits) (j % t.cfg.width)

/-- What the pairs of a pass from `s` to `t` have done: the planes held, the sets grown, nothing else changed. -/
structure PassProgress (s t : State) : Prop where
  others : SameButPass s t
  tick : t.tick = s.tick
  column : t.encX < t.cfg.width
  quiet : FrameQuiet t
  held : PairsHeld t
  outside : ∀ a, bpsBytes s.cfg ≤ a → memGet t.bps a = memGet s.bps a
  sets : SetsAfterPlaneWrites s t (IndexBefore t)

theorem PassProgress.start {s : State} (hr : s.encR = 0) (hx : s.encX = 0) (hw : 1 ≤ s.cfg.width) (hq : FrameQuiet s) :
    PassProgress s s where
  others := rfl
  tick := rfl
  column := by omega
  quiet := hq
  held := fun r _ x _ _ _ hbefore => absurd hbefore (not_beforePosition_of_origin hr hx r x)
  outside := fun _ _ => rfl
  sets := ⟨fun _ _ _ => ⟨.inl, fun h => h.elim id fun h => absurd h.1 (not_beforePosition_of_origin hr hx _ _)⟩,
    fun _ => rfl⟩

theorem PassProgress.cfg {s t : State} (h : PassProgress s t) : t.cfg = s.cfg := by rw [h.others]

/-- The indices of the pairs before the next position are those before this one and the pair's own. -/
theorem PairWritten.indexBefore_next {s z : State} (hz : PairWritten s z) (hin : s.encX < s.cfg.width) (j : Nat) :
    IndexBefore s j ∨ (∃ b ∈ List.range depthBits, j = bpi s.cfg s.encR b s.encX) ↔ IndexBefore (nextPair z) j := by
  simp only [IndexBefore]
  rw [eq_bpi_iff hin, nextPair_cfg, hz.cfg, hz.before_next hin (Nat.mod_lt j (by omega))]

/-- One more pair. -/
theorem PassProgress.nextPair {s t : State} (h : PassProgress s t) (hr : t.encR < rows t.cfg) :
    ∃ u, exec .encPair t = .next u ∧ PassProgress s u ∧ pairNumber u = pairNumber t + 1 := by
  obtain ⟨z, hexec, hz⟩ := execEncPair_of_quiet h.quiet hr h.column
  obtain ⟨hnumber, hcolumn⟩ := pairNumber_nextPair (s := z) (by rw [hz.cfg, hz.encX]; exact h.column)
  have hsame : pairNumber z = pairNumber t := by rw [pairNumber, pairNumber, hz.cfg, hz.encR, hz.encX]
  refine ⟨_, hexec, ?_, hnumber.trans (by rw [hsame])⟩
  exact {
    others := by rw [nextPair_eq, hz.others, h.others]
    tick := by rw [nextPair_tick, hz.tick, h.tick]
    column := by rwa [nextPair_cfg]
    quiet := hz.frameQuiet h.quiet
    held := hz.pairsHeld h.column h.held
    outside := fun a ha => by
      rw [nextPair_bps, ← h.outside a ha]
      refine hz.elsewhere a fun b hb heq => ?_
      have hlt := bpi_lt hr (List.mem_range.mp hb) h.column
      rw [← heq, h.cfg] at hlt
      omega
    sets := by
      have hgrown := setsAfterPlaneWrites_trans h.sets hz.sets h.cfg (fun _ hj => hz.kept h.column hj)
        (hz.indexBefore_next h.column)
      simpa only [SetsAfterPlaneWrites, SetsExtendedOn, candOf_nextPair, nextPair_cand, bufOf_nextPair] using hgrown }

/-- The pairs that are left of a pass, one after another. -/
theorem PassProgress.pairs {s t : State} {n : Nat} (h : PassProgress s t)
    (hn : pairNumber t + n = rows s.cfg * s.cfg.width) :
    ∃ u, repeatOp n .encPair t = .next u ∧ PassProgress s u ∧ pairNumber u = rows s.cfg * s.cfg.width := by
  induction n generalizing t with
  | zero => exact ⟨t, rfl, h, hn⟩
  | succ m ih =>
    have hr : t.encR < rows t.cfg := by
      have hlt : t.encR * s.cfg.width < rows s.cfg * s.cfg.width := by
        rw [pairNumber, h.cfg] at hn
        omega
      rw [h.cfg]
      exact Nat.lt_of_mul_lt_mul_right hlt
    obtain ⟨u, hexec, hu, hnumber⟩ := h.nextPair hr
    obtain ⟨v, hrest, hv, hend⟩ := ih hu (by omega)
    exact ⟨v, by rw [repeatOp, hexec, andThen_next, hrest], hv, hend⟩

/-- After the last pair the position stands past the last row. -/
theorem PassProgress.position_of_end {s t : State} (h : PassProgress s t)
    (hend : pairNumber t = rows s.cfg * s.cfg.width) : t.encR = rows s.cfg ∧ t.encX = 0 := by
  have hx := h.column
  rw [pairNumber, h.cfg] at hend
  rw [h.cfg] at hx
  have hdiv : (t.encR * s.cfg.width + t.encX) / s.cfg.width = t.encR := by
    rw [Nat.mul_comm, Nat.mul_add_div (by omega), Nat.div_eq_of_lt hx, Nat.add_zero]
  rw [hend, Nat.mul_div_cancel _ (by omega)] at hdiv
  rw [hdiv] at hend
  exact ⟨hdiv.symm, by omega⟩

/-- At the end of a pass the pairs are those of all of `BPS`. -/
theorem indexBefore_end_iff {t : State} (hr : t.encR = rows t.cfg) (hx : t.encX = 0) (hw : 0 < t.cfg.width) (j : Nat) :
    IndexBefore t j ↔ j < bpsBytes t.cfg := by
  have hd : 0 < depthBits := by decide
  rw [IndexBefore, BeforePosition, hr, hx, Nat.div_lt_iff_lt_mul hd, Nat.div_lt_iff_lt_mul hw]
  simp [bpsBytes]

/-- A pass run back to back from its origin over a quiet frame (R141, R143). -/
theorem encodePass_back_to_back {s : State} (hr : s.encR = 0) (hx : s.encX = 0) (hw : 1 ≤ s.cfg.width)
    (hq : FrameQuiet s) :
    ∃ t, repeatOp (rows s.cfg * s.cfg.width) .encPair s = .next t ∧ PassProgress s t ∧
      t.encR = rows s.cfg ∧ t.encX = 0 := by
  have hstart : pairNumber s + rows s.cfg * s.cfg.width = rows s.cfg * s.cfg.width := by simp [pairNumber, hr, hx]
  obtain ⟨t, hexec, ht, hend⟩ := (PassProgress.start hr hx hw hq).pairs hstart
  exact ⟨t, hexec, ht, ht.position_of_end hend⟩

end Sys2Proof.Machine
end

section
/-! PROOFS. An encode pass under every turn (R141 to R143): a pass starts at its origin over a quiet frame, its own
steps keep what is held, and no other turn touches it while `FB` stays as it is. -/

namespace Sys2Proof.Machine

/-! ## A pass at its origin -/

/-- A pass in progress is at its origin, over a quiet frame. -/
abbrev PassAtOrigin (t : State) : Prop := t.encActive = true → t.encR = 0 ∧ t.encX = 0 ∧ FrameQuiet t

/-- At the origin nothing is held yet. -/
theorem passEncodes_of_origin {t : State} (h : PassAtOrigin t) : PassEncodes t := by
  intro hactive
  obtain ⟨hr, hx, hquiet⟩ := h hactive
  exact ⟨hquiet, fun r _ x _ _ _ hbefore => absurd hbefore (not_beforePosition_of_origin hr hx r x)⟩

theorem passAtOrigin_scanClosed : ScanClosed PassAtOrigin where
  position := fun _ _ _ _ _ _ _ _ _ _ _ _ h => h
  readerPass := fun _ h hactive => ⟨(h hactive).1, (h hactive).2.1, .inr rfl⟩
  start := fun _ _ _ _ => ⟨rfl, rfl, .inr rfl⟩

/-- A pass in progress is at its origin in the receive context, whatever is written to `FB`. -/
abbrev ReceivePassAtOrigin (t : State) : Prop :=
  t.encActive = true → t.encR = 0 ∧ t.encX = 0 ∧ t.cfg.encPlace = .receive

theorem receivePassAtOrigin_receiveClosed : ReceiveClosed ReceivePassAtOrigin where
  registers := fun _ _ _ _ _ _ _ _ h => h
  record := fun _ _ _ h _ => h
  start := fun _ _ hp _ => ⟨rfl, rfl, hp⟩

theorem receivePassAtOrigin_decodeClosed : DecodeClosed ReceivePassAtOrigin :=
  ⟨fun _ _ _ h _ => h, fun _ _ h => h, fun _ _ h => h⟩

/-- A turn of `RX` outside a pass starts one at its origin or none (R284). -/
theorem rxStep_passAtOrigin {s : State} (hinv : Inv s) (hidle : s.encActive = false) :
    EndsIn ReceivePassAtOrigin (rxStep s) := by
  have hstart : ReceivePassAtOrigin s := fun hactive => by simp [hidle] at hactive
  unfold rxStep
  split
  next hphase => exact absurd (hinv.rx_in_pass.mp hphase).1 (by simp [hidle])
  · split
    · exact hstart
    next d rest _ =>
      exact receivePassAtOrigin_receiveClosed.exec (s := consumeLink d rest s) (linkOp_class s d) hstart
        (receivePassAtOrigin_decodeClosed.execDecCobs hstart) (receivePassAtOrigin_decodeClosed.execDecText hstart)
        fun _ => hstart

/-- A turn of `RF` outside a pass starts one at its origin, over a reader pass of its own, or none (R73, R169). -/
theorem rfStep_passAtOrigin {s : State} (hinv : Inv s) (hidle : s.encActive = false) :
    EndsIn PassAtOrigin (rfStep s) := by
  refine passAtOrigin_scanClosed.rfStep (fun hactive => by simp [hidle] at hactive) fun hphase _ => ?_
  exact absurd (hinv.rf_in_pass.mp hphase).1 (by simp [hidle])

/-! ## The sets of a frame that stays as it is -/

/-- Every candidate of a byte of `FB` is one it had in `s` or its current byte. -/
abbrev CandidatesFrom (s t : State) : Prop :=
  t.cfg = s.cfg ∧ ∀ j m, m ∈ candOf t j → m ∈ candOf s j ∨ m = memGet t.fb j

theorem candidatesFrom_of_frameWrites {s t : State} {w : Nat → Prop} (hp : s.cfg.encPlace = .refresh)
    (hcfg : t.cfg = s.cfg) (h : SetsAfterFrameWrites s t w) : CandidatesFrom s t := by
  refine ⟨hcfg, fun j m hm => ?_⟩
  have hset := (h.1 hp j m).mp hm
  rw [sharedBuf_of_refresh hp] at hset
  exact hset.imp_right And.right

/-- A byte of the receive buffer is in no candidate set (R63). -/
theorem candOf_storeByte_rxb (s : State) (i j : Nat) (v : Byte) : candOf (storeByte s .rxb i v) j = candOf s j := by
  have hother : ¬ sharedBuf s.cfg = .rxb := (rxb_not_shared s.cfg).symm
  rw [candOf, candOf, storeByte_cand_of_not_shared (rxb_not_shared s.cfg), storeByte_cfg, memGet_storeByte,
    if_neg fun h => hother h.1]

theorem candidatesFrom_receiveClosed {s : State} (hp : s.cfg.encPlace = .refresh) :
    ReceiveClosed (CandidatesFrom s) where
  registers := fun _ _ _ _ _ _ _ _ h => h
  record := fun _ _ _ h _ => ⟨h.1, fun j m hm => h.2 j m (by rwa [candOf_storeByte_rxb] at hm)⟩
  start := fun t h hreceive => by
    rw [h.1, hp] at hreceive
    cases hreceive

theorem execDecode_candidatesFrom {s : State} {r : Result} (hp : s.cfg.encPlace = .refresh)
    (h : EndsIn (SameButDecode s · 0) r) : EndsIn (CandidatesFrom s) r :=
  h.imp fun _ ht => candidatesFrom_of_frameWrites hp (by rw [ht.1]) ht.2

/-- With `REFRESH` a link byte leaves in the sets what they had and what `FB` holds now (R72). -/
theorem rxStep_candidatesFrom {s : State} (hp : s.cfg.encPlace = .refresh) : EndsIn (CandidatesFrom s) (rxStep s) := by
  have hself : CandidatesFrom s s := ⟨rfl, fun _ _ => .inl⟩
  unfold rxStep
  split
  · rw [rxEncoderOp, hp]
    exact endsIn_fault
  · split
    · exact hself
    next d rest _ =>
      exact (candidatesFrom_receiveClosed (s := consumeLink d rest s) hp).exec (linkOp_class s d)
        ⟨rfl, fun _ _ => .inl⟩ (execDecode_candidatesFrom hp (execDecCobs_sameButDecode _))
        (execDecode_candidatesFrom hp (execDecText_sameButDecode _))
        fun _ => candidatesFrom_of_frameWrites hp rfl (setsAfterFrameWrites_storeByte _ _ d)

/-- A listed set has a member that is not the current byte (R72). -/
theorem cand_eq_nil_of_current {s : State} (hinv : Inv s)
    (h : ∀ j m, m ∈ candOf s j → m = memGet (bufOf s (sharedBuf s.cfg)) j) : s.cand = [] := by
  cases hcand : s.cand with
  | nil => rfl
  | cons p rest =>
    have hset : candOf s p.1 = p.2 := candOf_of_listed (by simp [hcand, candGet])
    obtain ⟨-, htwo, hsorted, -⟩ := hinv.cand_ok p (by simp [hcand])
    match hmembers : p.2 with
    | [] | [_] => simp [hmembers] at htwo
    | a :: b :: _ =>
      have ha := h p.1 a (by simp [hset, hmembers])
      have hb := h p.1 b (by simp [hset, hmembers])
      simp [hmembers, ha, hb] at hsorted

/-- With `REFRESH` a turn of `RX` that leaves `FB` as it was leaves a quiet frame quiet. -/
theorem frameQuiet_of_rxStep {s t : State} (hinv : Inv s) (hp : s.cfg.encPlace = .refresh) (hquiet : FrameQuiet s)
    (ht : rxStep s = .next t) (hfb : t.fb = s.fb) : FrameQuiet t := by
  have hempty : s.cand = [] := hquiet.resolve_left (by simp [hp])
  have hinv' : Inv t := by
    obtain ⟨u, hu, hinv'⟩ := rxStep_answers hinv
    rw [ht] at hu
    cases hu
    exact hinv'
  obtain ⟨hcfg, hfrom⟩ := (rxStep_candidatesFrom hp).of_eq ht
  refine .inr (cand_eq_nil_of_current hinv' fun j m hm => ?_)
  rw [hcfg, sharedBuf_of_refresh hp]
  rcases hfrom j m hm with hold | hnow
  · rw [candOf_of_unlisted (by rw [hempty]; rfl), sharedBuf_of_refresh hp] at hold
    exact (List.mem_singleton.mp hold).trans (congrArg (memGet · j) hfb.symm)
  · exact hnow

/-! ## A turn during a pass -/

/-- What a step from `s` to `t` owes the pass, if it leaves `FB` alone while one is in progress (R143). -/
abbrev KeepsPass (s t : State) : Prop :=
  (s.encActive = true → t.fb = s.fb) →
    PassEncodes t ∧
    (s.encActive = true → t.encActive = false →
      ∀ r b x, r < rows t.cfg → b < 6 → x < t.cfg.width → HoldsEncoding t r b x)

/-- A step outside a pass owes only its start. -/
theorem keepsPass_of_idle {s t : State} (hidle : s.encActive = false) (h : PassAtOrigin t) : KeepsPass s t :=
  fun _ => ⟨passEncodes_of_origin h, fun hactive => by simp [hidle] at hactive⟩

/-- A step that leaves `BPS` and the position alone keeps what is held. -/
theorem keepsPass_of_same {s t : State} (h : PassEncodes s) (hcfg : t.cfg = s.cfg) (hbps : t.bps = s.bps)
    (hactive : t.encActive = s.encActive) (hr : t.encR = s.encR) (hx : t.encX = s.encX)
    (hquiet : s.encActive = true → FrameQuiet s → t.fb = s.fb → FrameQuiet t) : KeepsPass s t := by
  refine fun hfb => ⟨fun hon => ?_, fun hon hoff => by simp [hactive, hon] at hoff⟩
  rw [hactive] at hon
  obtain ⟨hwas, hheld⟩ := h hon
  refine ⟨hquiet hon hwas (hfb hon), fun r b x hlt hb hxlt hbefore => ?_⟩
  rw [hcfg] at hlt hxlt
  rw [hr, hx] at hbefore
  exact holdsEncoding_of_same (hheld r b x hlt hb hxlt hbefore) hcfg (hfb hon) (by rw [hbps])

/-- The encoder's own step adds a pair, or ends a pass that holds every pair (R141, R142). -/
theorem encoderOp_keepsPass {s t : State} (hinv : Inv s) (h : PassEncodes s) (hactive : s.encActive = true)
    (ht : runOp (encoderOp s) s = .next t) : KeepsPass s t := by
  obtain ⟨hquiet, hheld⟩ := h hactive
  rcases hinv.pass_position hactive with ⟨hr, hx⟩ | ⟨hr, -⟩
  · have hop : encoderOp s = some .encPair := by simp [encoderOp, encPairEnabled, hactive, hr]
    obtain ⟨z, hexec, hz⟩ := execEncPair_of_quiet hquiet hr hx
    have hpair : execEncPair s = .next t := by rwa [hop] at ht
    rw [hexec] at hpair
    cases hpair
    refine fun _ => ⟨fun _ => ⟨hz.frameQuiet hquiet, hz.pairsHeld hx hheld⟩, fun _ hoff => ?_⟩
    have hon : (nextPair z).encActive = true := by rw [nextPair_eq, hz.encActive, hactive]
    simp [hon] at hoff
  · have hop : encoderOp s = some .encEnd := by simp [encoderOp, encPairEnabled, encEndEnabled, hactive, hr]
    have hend : t.encActive = false ∧ t.cfg = s.cfg ∧ t.fb = s.fb ∧ t.bps = s.bps := by
      have hlast : execEncEnd s = .next t := by rwa [hop] at ht
      unfold execEncEnd at hlast
      split at hlast <;> cases hlast <;> exact ⟨rfl, rfl, rfl, rfl⟩
    obtain ⟨hoff, hcfg, hfb, hbps⟩ := hend
    refine fun _ => ⟨fun hon => by simp [hoff] at hon, fun _ _ r b x hlt hb hxlt => ?_⟩
    rw [hcfg] at hlt hxlt
    exact holdsEncoding_of_same (hheld r b x hlt hb hxlt (.inl (hr ▸ hlt))) hcfg hfb (by rw [hbps])

theorem rxStep_keepsPass {s t : State} (hinv : Inv s) (h : PassEncodes s) (ht : rxStep s = .next t) :
    KeepsPass s t := by
  cases hactive : s.encActive with
  | false =>
    have horigin := (rxStep_passAtOrigin hinv hactive).of_eq ht
    exact keepsPass_of_idle hactive fun hon => ⟨(horigin hon).1, (horigin hon).2.1, .inl (horigin hon).2.2⟩
  | true =>
    cases hp : s.cfg.encPlace with
    | receive =>
      have hphase := hinv.rx_in_pass.mpr ⟨hactive, hp⟩
      rw [rxStep, hphase] at ht
      exact encoderOp_keepsPass hinv h hactive (by simpa [rxEncoderOp, hp] using ht)
    | refresh =>
      obtain ⟨hcfg, -, hpass⟩ := (rxStep_keepsRefreshSide s).of_eq ht
      obtain ⟨hbps, hon, hr, hx, -⟩ := hpass hp
      exact keepsPass_of_same h hcfg hbps hon hr hx fun _ hquiet hfb => frameQuiet_of_rxStep hinv hp hquiet ht hfb

theorem rfStep_keepsPass {s t : State} (hinv : Inv s) (h : PassEncodes s) (ht : rfStep s = .next t) :
    KeepsPass s t := by
  cases hactive : s.encActive with
  | false => exact keepsPass_of_idle hactive ((rfStep_passAtOrigin hinv hactive).of_eq ht)
  | true =>
    cases hp : s.cfg.encPlace with
    | receive =>
      obtain ⟨-, hpass⟩ := (rfStep_keepsReceiveSide s).of_eq ht
      obtain ⟨hbps, -, hon, hr, hx⟩ := hpass hp
      have hcfg : t.cfg = s.cfg := EndsIn.of_eq (turnStep_keepsConfig .rf rfl) ht
      exact keepsPass_of_same h hcfg hbps hon hr hx fun _ _ _ => .inl (by rw [hcfg, hp])
    | refresh =>
      have hphase := hinv.rf_in_pass.mpr ⟨hactive, hp⟩
      exact encoderOp_keepsPass hinv h hactive (by simpa [rfStep, scanOp, hphase, hp] using ht)

theorem turnStep_keepsPass {s t : State} (turn : Turn) (hinv : Inv s) (h : PassEncodes s)
    (ht : turnStep turn s = .next t) : KeepsPass s t := by
  cases turn with
  | rx => exact rxStep_keepsPass hinv h ht
  | rf => exact rfStep_keepsPass hinv h ht
  | env m =>
    cases ht
    cases m <;> exact keepsPass_of_same h rfl rfl rfl rfl rfl fun _ hquiet _ => hquiet

/-- Using up a turn touches nothing of a pass. -/
theorem keepsPass_of_nextTurn {s t : State} (h : KeepsPass (nextTurn s).2 t) : KeepsPass s t := by
  unfold nextTurn at h
  split at h <;> exact h

theorem passEncodes_nextTurn {s : State} (h : PassEncodes s) : PassEncodes (nextTurn s).2 := by
  unfold nextTurn
  split <;> exact h

/-- Settles O40: turn by turn for the step, pair by pair for the run. -/
theorem encodePassYieldsReference : Obligations.EncodePassYieldsReference := by
  refine ⟨fun s t hinv h ht => ?_, fun s hr hx hw hquiet => ?_⟩
  · rw [step_of_configOk hinv.config_ok] at ht
    exact keepsPass_of_nextTurn (turnStep_keepsPass _ hinv.nextTurn (passEncodes_nextTurn h) ht)
  · obtain ⟨t, hexec, ht, hr', hx'⟩ := encodePass_back_to_back hr hx hw hquiet
    have hcfg := ht.cfg
    have hfb : t.fb = s.fb := by rw [ht.others]
    have hindex := indexBefore_end_iff (by rw [hr', hcfg]) hx' (by rw [hcfg]; omega)
    rw [hcfg] at hindex
    refine ⟨t, hexec, ht.others, hr', hx', ht.tick, ?_, fun r b x hlt hb hxlt => ?_, ht.outside⟩
    · exact ⟨fun hp => setsExtendedOn_congr (ht.sets.1 hp) hindex, ht.sets.2⟩
    · obtain ⟨w, hw, hvalue⟩ := ht.held r b x (by rwa [hcfg]) hb (by rwa [hcfg]) (.inl (by rwa [hr']))
      exact ⟨w, by rw [← hcfg, hw], hvalue.trans (encodedByte_of_same hcfg hfb r b x)⟩

end Sys2Proof.Machine
end

section
/-! PROOFS. The class tables as a code (R94): the byte of a well-formed operation decodes to it, and what a byte decodes
to is well formed and has that byte (R95, R96, R99, R103, R108). -/

namespace Sys2Proof

/-! ## From the operation to its byte and back -/

theorem decode_of_decodeByte {f : Format} {d : Byte} {i : Instr} (rest : List Byte) (h : decodeByte f d = .ok i) :
    decode f (d :: rest) = .ok (i, rest) := by
  simp [decode, h]

theorem within_iff {d : Byte} {lo hi : Nat} : d.within lo hi = true ↔ lo ≤ d.toNat ∧ d.toNat ≤ hi := by
  simp [Byte.within]

/-- Two runs of byte values with a gap between them. -/
theorem not_within_of_within {d : Byte} {lo hi lo' hi' : Nat} (h : d.within lo hi = true)
    (hapart : hi < lo' ∨ hi' < lo) : ¬ d.within lo' hi' = true := by
  rw [within_iff] at *
  omega

theorem ne_of_within {d b : Byte} {lo hi : Nat} (h : d.within lo hi = true) (hb : ¬ b.within lo hi = true) : d ≠ b := by
  rintro rfl
  exact hb h

theorem classifyCobs_of_wf {d : Byte} (h : (Instr.cobsData d).wf = true) : classifyCobs d = .cobsData d :=
  if_neg (ne_of_within h (by decide))

/-- A record that is no lone `0xFF` takes every byte but `LF` and `CR` as data (R96). -/
theorem classifyText_of_wf {d : Byte} (h : (Instr.textData d).wf = true) :
    classifyText false false d = .textData d := by
  simp only [Instr.wf, Bool.and_eq_true, decide_eq_true_eq] at h
  simp [classifyText, h]

theorem decodeCode_of_wf {c : Byte} (h : (Instr.cobsCode c).wf = true) : decodeCode c = .cobsCode c := by
  rw [decodeCode, if_neg (ne_of_within h (by decide)), if_neg (ne_of_within h (by decide))]

theorem decodeSym_of_upper {d : Byte} (h : (Instr.b64Upper d).wf = true) : decodeSym d = .b64Upper d := if_pos h

theorem decodeSym_of_lower {d : Byte} (h : (Instr.b64Lower d).wf = true) : decodeSym d = .b64Lower d := by
  rw [decodeSym, if_neg (not_within_of_within h (by decide)), if_pos (by exact h)]

theorem decodeSym_of_digit {d : Byte} (h : (Instr.b64Digit d).wf = true) : decodeSym d = .b64Digit d := by
  rw [decodeSym, if_neg (not_within_of_within h (by decide)), if_neg (not_within_of_within h (by decide)),
    if_pos (by exact h)]

/-- The invalid symbols are what the letters, the digits and the three signs leave of the byte values (R106). -/
theorem invalidSymbol_iff {d : Byte} : d.invalidSymbol = true ↔
    ¬ d.within 0x41 0x5A = true ∧ ¬ d.within 0x61 0x7A = true ∧ ¬ d.within 0x30 0x39 = true ∧
      d ≠ 0x2B ∧ d ≠ 0x2F ∧ d ≠ padByte := by
  have hd := d.isLt
  simp only [Byte.invalidSymbol, padByte, Bool.or_eq_true, within_iff]
  bv_omega

theorem decodeSym_of_invalid {d : Byte} (h : (Instr.b64Invalid d).wf = true) : decodeSym d = .b64Invalid d := by
  obtain ⟨hupper, hlower, hdigit, hplus, hslash, hpad⟩ := invalidSymbol_iff.mp h
  rw [decodeSym, if_neg hupper, if_neg hlower, if_neg hdigit, if_neg hplus, if_neg hslash, if_neg hpad]

/-- Settles O2, class by class: an operand in its class meets no earlier class of its table. -/
theorem decodeOfEncode : Obligations.DecodeOfEncode := by
  intro i f hwf hf
  cases i with
  | cobsData d => cases hf; exact decode_of_decodeByte [] (congrArg Except.ok (classifyCobs_of_wf hwf))
  | textData d => cases hf; exact decode_of_decodeByte [] (congrArg Except.ok (classifyText_of_wf hwf))
  | cobsCode c => cases hf; exact decode_of_decodeByte [] (congrArg Except.ok (decodeCode_of_wf hwf))
  | b64Upper d => cases hf; exact decode_of_decodeByte [] (congrArg Except.ok (decodeSym_of_upper hwf))
  | b64Lower d => cases hf; exact decode_of_decodeByte [] (congrArg Except.ok (decodeSym_of_lower hwf))
  | b64Digit d => cases hf; exact decode_of_decodeByte [] (congrArg Except.ok (decodeSym_of_digit hwf))
  | b64Invalid d => cases hf; exact decode_of_decodeByte [] (congrArg Except.ok (decodeSym_of_invalid hwf))
  | cobsTerm | rawData | textLf | textCr | textSent1 | cobsCode0 | cobsCodeFF | b64Plus | b64Slash | b64Pad | ackK
  | ackE => cases hf; rfl
  | encStart | encPair | encEnd | sdBlank | sdShift | sdAddr | sdLatOn | sdLatOff | sdEnable | sdHold | sdBlankEnd
  | sdTake | hfPublish | hfTake | decCobs | decText => cases hf

/-! ## From a byte to its operation and back -/

/-- The operation is well formed and has this byte. -/
abbrev HasByte (d : Byte) (i : Instr) : Prop := encode i = [d] ∧ i.wf = true

theorem classifyCobs_hasByte (d : Byte) : HasByte d (classifyCobs d) := by
  unfold classifyCobs
  split
  next h => exact ⟨by rw [h]; rfl, rfl⟩
  next h =>
    unfold cobsTermByte at h
    exact ⟨rfl, within_iff.mpr (by bv_omega)⟩

theorem classifyText_hasByte (raw armed : Bool) (d : Byte) : HasByte d (classifyText raw armed d) := by
  unfold classifyText
  split
  · exact ⟨rfl, rfl⟩
  split
  next h => exact ⟨by rw [h]; rfl, rfl⟩
  next hlf =>
    split
    next h => exact ⟨by rw [h]; rfl, rfl⟩
    next hcr =>
      split
      next h => exact ⟨by rw [h.1]; rfl, rfl⟩
      next => exact ⟨rfl, by simp [Instr.wf, hlf, hcr]⟩

theorem decodeCode_hasByte (c : Byte) : HasByte c (decodeCode c) := by
  unfold decodeCode
  split
  next h => exact ⟨by rw [h]; rfl, rfl⟩
  next hzero =>
    split
    next h => exact ⟨by rw [h]; rfl, rfl⟩
    next hmax =>
      unfold cobsMaxCode at hmax
      exact ⟨rfl, within_iff.mpr (by bv_omega)⟩

theorem decodeSym_hasByte (d : Byte) : HasByte d (decodeSym d) := by
  unfold decodeSym
  split
  · exact ⟨rfl, ‹_›⟩
  split
  · exact ⟨rfl, ‹_›⟩
  split
  · exact ⟨rfl, ‹_›⟩
  split
  next h => exact ⟨by rw [h]; rfl, rfl⟩
  split
  next h => exact ⟨by rw [h]; rfl, rfl⟩
  split
  next h => exact ⟨by rw [h]; rfl, rfl⟩
  next => exact ⟨rfl, invalidSymbol_iff.mpr ⟨‹_›, ‹_›, ‹_›, ‹_›, ‹_›, ‹_›⟩⟩

theorem decodeAck_hasByte {d : Byte} {i : Instr} (h : decodeAck d = .ok i) : HasByte d i := by
  unfold decodeAck at h
  split at h
  next hk => cases h; exact ⟨by rw [hk]; rfl, rfl⟩
  next =>
    split at h
    next he => cases h; exact ⟨by rw [he]; rfl, rfl⟩
    next => cases h

theorem decodeByte_hasByte {f : Format} {d : Byte} {i : Instr} (h : decodeByte f d = .ok i) : HasByte d i := by
  cases f with
  | linkCobs => cases h; exact classifyCobs_hasByte d
  | linkText raw armed => cases h; exact classifyText_hasByte raw armed d
  | code => cases h; exact decodeCode_hasByte d
  | sym => cases h; exact decodeSym_hasByte d
  | ack => exact decodeAck_hasByte h

/-- Settles O3: a byte string decodes by its first byte alone. -/
theorem encodeOfDecode : Obligations.EncodeOfDecode := by
  intro f d rest rest' i h
  cases hbyte : decodeByte f d with
  | ok j =>
    rw [decode_of_decodeByte rest hbyte] at h
    cases h
    exact ⟨rfl, decodeByte_hasByte hbyte⟩
  | error r => simp [decode, hbyte] at h

/-- Only the format of `link_out` has bytes of no class (R108, R109). -/
theorem decodeByte_rejects_iff {f : Format} {d : Byte} :
    (∃ r, decodeByte f d = .error r) ↔ f = .ack ∧ d ≠ ackOkByte ∧ d ≠ ackErrByte := by
  cases f with
  | ack =>
    simp only [decodeByte, decodeAck, true_and]
    split
    next h => simp [h]
    next hk =>
      split
      next h => simp [h]
      next he => simp [hk, he]
  | linkCobs | linkText | code | sym => simp [decodeByte]

/-- Settles O4, from the classes of one byte. -/
theorem everyByteHasAClass : Obligations.EveryByteHasAClass := by
  intro f bytes
  cases bytes with
  | nil => simp [decode]
  | cons d rest =>
    have hreject : (∃ r, decode f (d :: rest) = .error r) ↔ ∃ r, decodeByte f d = .error r := by
      cases h : decodeByte f d <;> simp [decode, h]
    rw [hreject, decodeByte_rejects_iff]
    simp [ackOkByte, ackErrByte]

/-- Settles O1: every word is read off its table. -/
theorem tableWordsDecode : Obligations.TableWordsDecode := by
  exact ⟨rfl, rfl, rfl, rfl, rfl, rfl, rfl, rfl, rfl, rfl, rfl, rfl, rfl, rfl, rfl, rfl, rfl, rfl, rfl⟩

end Sys2Proof
end

section
/-! PROOFS. What a step that answers is, and the plane bytes: the bits of a packed byte (R92, R137), and that no step
writes one with bits 7:6 set (R93). -/

namespace Sys2Proof.Machine

/-! ## A step that answers -/

/-- A step that answers a next state is a turn of an agent (R9, R14). -/
theorem turnStep_of_step {s t : State} (h : step s = .next t) : turnStep (nextTurn s).1 (nextTurn s).2 = .next t := by
  unfold step at h
  split at h
  · exact h
  · cases h

/-- The use of a turn moves the schedule or the counter of free values, and nothing else (R318). -/
theorem nextTurn_snd_eq (s : State) :
    (nextTurn s).2 = { s with sched := (nextTurn s).2.sched, tick := (nextTurn s).2.tick } := by
  unfold nextTurn
  split <;> rfl

/-! ## Packed bits -/

/-- Bit `k` of packed bits is the `k`-th of them; no bit is set past the last. -/
theorem getLsbD_packBits {bits : List Bool} (h : bits.length ≤ 8) (k : Nat) :
    (packBits bits).getLsbD k = bits.getD k false := by
  induction bits generalizing k with
  | nil => simp [packBits]
  | cons b bs ih =>
    have hshort : bs.length < 8 := h
    have hbit : (if b then 1 else 0 : Byte).getLsbD k = (decide (k = 0) && b) := by
      cases b <;> simp [BitVec.getLsbD_one]
    rw [packBits, BitVec.getLsbD_or, BitVec.getLsbD_shiftLeft, ih hshort.le, hbit]
    cases k with
    | zero => simp
    | succ k =>
      by_cases hk : k + 1 < 8
      · simp [hk]
      · have hpast : bs.length ≤ k := by omega
        simp [hk, hpast]

/-- Bit `k` of a plane byte is bit `b` of the `k`-th of its sub-pixel values (R137). -/
theorem getLsbD_planeByte {qs : List (BitVec 6)} (h : qs.length ≤ 8) (b k : Nat) :
    (planeByte qs b).getLsbD k = (qs.getD k 0).getLsbD b := by
  rw [planeByte, getLsbD_packBits (by simpa using h)]
  simp only [List.getD_eq_getElem?_getD, List.getElem?_map]
  cases qs[k]? <;> simp

/-- Settles O35, from the six values packed from bit 0. -/
theorem planeByteHoldsSubPixelBits : Obligations.PlaneByteHoldsSubPixelBits := by
  intro g u l b k
  have hbit := getLsbD_planeByte (qs := subPixels g u l) (by simp [subPixels]) b k
  refine ⟨fun _ => hbit, fun hk => ?_, planeByte_subPixels g u l b⟩
  rw [hbit, List.getD_eq_default _ _ (by simpa [subPixels] using hk)]
  exact BitVec.getLsbD_zero

/-! ## The reserved bits of every byte written -/

/-- Bits 7:6 of every byte written to `BPS` are clear (R93). -/
abbrev PlanesReserved (s : State) : Prop := ∀ p ∈ s.bps, p.2.toNat < 64

theorem planesReserved_storeByte_bps {s : State} {i : Nat} {v : Byte} (h : PlanesReserved s) (hv : v.toNat < 64) :
    PlanesReserved (storeByte s .bps i v) := by
  intro p hp
  rw [storeByte_bps, if_pos rfl] at hp
  rcases mem_memSet _ _ _ _ hp with rfl | hp
  · exact hv
  · exact h p hp

theorem planesReserved_decodeClosed : DecodeClosed PlanesReserved :=
  ⟨fun _ _ _ h _ => h, fun _ _ h => h, fun _ _ h => h⟩

theorem planesReserved_passClosed : PassClosed PlanesReserved :=
  ⟨fun _ _ h => h, fun _ _ _ h _ hv => planesReserved_storeByte_bps h hv⟩

theorem planesReserved_receiveClosed : ReceiveClosed PlanesReserved :=
  ⟨fun _ _ _ _ _ _ _ _ h => h, fun _ _ _ h _ => h, fun _ h _ => h⟩

theorem planesReserved_scanClosed : ScanClosed PlanesReserved :=
  ⟨fun _ _ _ _ _ _ _ _ _ _ _ _ h => h, fun _ h => h, fun _ h _ => h⟩

theorem encoderOp_planesReserved {s : State} (h : PlanesReserved s) :
    EndsIn PlanesReserved (runOp (encoderOp s) s) := by
  refine endsIn_encoderOp (planesReserved_passClosed.execEncPair h fun t ht => ?_) ?_
  · rwa [PlanesReserved, nextPair_bps]
  · unfold execEncEnd
    split <;> exact h

theorem rxStep_planesReserved {s : State} (h : PlanesReserved s) : EndsIn PlanesReserved (rxStep s) := by
  unfold rxStep
  split
  · unfold rxEncoderOp
    split
    · exact encoderOp_planesReserved h
    · exact endsIn_fault
  · split
    · exact h
    next d rest _ =>
      exact planesReserved_receiveClosed.exec (s := consumeLink d rest s) (linkOp_class s d) h
        (planesReserved_decodeClosed.execDecCobs h) (planesReserved_decodeClosed.execDecText h) fun _ => h

theorem turnStep_planesReserved {s : State} (turn : Turn) (h : PlanesReserved s) :
    EndsIn PlanesReserved (turnStep turn s) := by
  cases turn with
  | rx => exact rxStep_planesReserved h
  | rf => exact planesReserved_scanClosed.rfStep h fun _ _ => encoderOp_planesReserved h
  | env m => cases m <;> exact h

/-- Settles O57: only an encode pair writes `BPS`, and it writes plane bytes. -/
theorem planeBytesKeepReservedBitsClear : Obligations.PlaneBytesKeepReservedBitsClear := by
  intro s t h hstep
  have hturn : PlanesReserved (nextTurn s).2 := by
    rw [nextTurn_snd_eq]
    exact h
  exact (turnStep_planesReserved _ hturn).of_eq (turnStep_of_step hstep)

end Sys2Proof.Machine
end

section
/-! PROOFS. The turn of a link byte (R200), and the acknowledge bytes a step puts on `link_out` (R108, R202, R304): none
in a decode, an encode pass or a turn of the scan driver, and at most one where a text record or a raw payload ends. -/

namespace Sys2Proof.Machine

/-! ## The turn of a link byte -/

theorem rxStep_of_byte {s : State} {d : Byte} {ds : List Byte} (hphase : s.rxPhase = .accept)
    (hlink : s.link = d :: ds) : rxStep s = exec (linkOp s d) (consumeLink d ds s) := by
  simp [rxStep, hphase, hlink]

/-- Settles O5: the use of the turn leaves what the class of the byte depends on. -/
theorem stepRunsDecodedLinkByte : Obligations.StepRunsDecodedLinkByte := by
  refine ⟨fun s t rest h => nextTurn_of_sched h, fun s h => by simp [nextTurn, h],
    fun s s1 d ds i hc hturn hphase hlink hi => ?_, fun s h => by simp [linkFormat, h], fun s h => ?_⟩
  · have hop : linkOp s d = i := by
      rw [linkOp_decode] at hi
      cases hi
      rfl
    obtain ⟨sched, tick, rfl⟩ : ∃ sched tick, s1 = { s with sched := sched, tick := tick } := by
      have hs1 := nextTurn_snd_eq s
      rw [hturn] at hs1
      exact ⟨_, _, hs1⟩
    rw [step_of_configOk hc, hturn, ← hop]
    exact rxStep_of_byte (s := { s with sched := sched, tick := tick }) hphase hlink
  · have harmed : sentinelArmed s = decide (s.rxLen = 1 ∧ currentByte s .rxb 0 = 0xFF) := (Bool.decide_and ..).symm
    simp only [linkFormat, h, rawActive, harmed]

/-! ## What is put on `link_out` -/

/-- Settles O31: either operation is its event. -/
theorem acknowledgeBytesAreEmitted : Obligations.AcknowledgeBytesAreEmitted := by
  intro s
  exact ⟨rfl, rfl⟩

/-- From `s` to `t` the trace has grown, by events that put `acks` on `link_out`. -/
def Emits (acks : List Byte) (s t : State) : Prop := ∃ es, t.trace = s.trace ++ es ∧ ackBytes es = acks

theorem Emits.refl (s : State) : Emits [] s s := ⟨[], (List.append_nil _).symm, rfl⟩

theorem Emits.of_trace {acks : List Byte} {s t u : State} (h : Emits acks s t) (hu : u.trace = t.trace) :
    Emits acks s u := by
  rwa [Emits, hu]

theorem Emits.emit {acks : List Byte} {s t : State} (h : Emits acks s t) (e : Event) :
    Emits (acks ++ ackBytes [e]) s (emit e t) := by
  obtain ⟨es, htrace, hacks⟩ := h
  refine ⟨es ++ [e], ?_, ?_⟩
  · rw [emit_trace, htrace, List.append_assoc]
  · rw [← hacks]
    exact List.filterMap_append

@[simp] theorem startPass_trace (s : State) : (startPass s).trace = s.trace := by
  unfold startPass
  split <;> rfl

@[simp] theorem postPublish_trace (s : State) : (postPublish s).trace = s.trace := by
  unfold postPublish
  split
  · rfl
  · split
    · exact startPass_trace _
    · rfl

@[simp] theorem nextPair_trace (s : State) : (nextPair s).trace = s.trace := by rw [nextPair_eq]

theorem emitsNone_decodeClosed (s : State) : DecodeClosed (Emits [] s) :=
  ⟨fun _ _ _ h _ => h, fun _ _ h => h, fun _ k h => h.emit (.fail k)⟩

theorem emitsNone_passClosed (s : State) : PassClosed (Emits [] s) :=
  ⟨fun _ _ h => h, fun _ _ _ h _ _ => h⟩

theorem encoderOp_emitsNone (s : State) : EndsIn (Emits [] s) (runOp (encoderOp s) s) := by
  refine endsIn_encoderOp ((emitsNone_passClosed s).execEncPair (.refl s) fun t ht => ht.of_trace (by simp)) ?_
  unfold execEncEnd
  split <;> exact Emits.refl s

/-! ## A turn of `RF` -/

theorem execSdBlank_emitsNone (s : State) : EndsIn (Emits [] s) (execSdBlank s) := by
  unfold execSdBlank
  split <;> exact (Emits.refl s).emit (.oe .disabled)

theorem execSdShift_emitsNone (s : State) : EndsIn (Emits [] s) (execSdShift s) := by
  unfold execSdShift
  split
  · refine endsIn_readThen fun v => ?_
    rw [afterRead_eq]
    unfold nextColumn
    split <;> exact (Emits.refl s).emit (.shift v)
  · exact Emits.refl s

theorem nextIteration_trace (s : State) : (nextIteration s).trace = s.trace := by
  unfold nextIteration
  split
  · rfl
  · split
    · rfl
    · split <;> rfl

theorem execSdTake_emitsNone (s : State) : EndsIn (Emits [] s) (execSdTake s) := by
  unfold execSdTake
  split
  · exact (Emits.refl s).of_trace (startPass_trace _)
  · exact Emits.refl s

theorem rfStep_emitsNone (s : State) : EndsIn (Emits [] s) (rfStep s) := by
  unfold rfStep scanOp
  split
  case h_1 => exact execSdBlank_emitsNone s
  case h_2 => exact execSdShift_emitsNone s
  case h_3 => exact (Emits.refl s).emit (.addr s.sdRow)
  case h_4 => exact (Emits.refl s).emit (.latAsserted s.cfg.tLatch)
  case h_5 => exact (Emits.refl s).emit .latDeasserted
  case h_6 => exact (Emits.refl s).emit (.oe .enabled)
  case h_7 => exact (Emits.refl s).emit (.hold (holdLabel s.cfg s.sdBit))
  case h_8 => exact ((Emits.refl s).emit (.oe .disabled)).of_trace (nextIteration_trace _)
  case h_9 =>
    split
    · exact endsIn_fault
    · exact execSdTake_emitsNone s
  case h_10 =>
    split
    · exact endsIn_fault
    · exact encoderOp_emitsNone s

/-! ## A turn of `RX` -/

/-- Nothing is put on `link_out`, or one `K` or `E` with `FRAMING = TEXT` (R108, R202). -/
abbrev OneAck (s t : State) : Prop :=
  Emits [] s t ∨ s.cfg.framing = .text ∧ (Emits [ackOkByte] s t ∨ Emits [ackErrByte] s t)

theorem EndsIn.oneAck {s : State} {r : Result} (h : EndsIn (Emits [] s) r) : EndsIn (OneAck s) r :=
  h.imp fun _ => .inl

section
variable {s t : State} (h : Emits [] s t)
include h

theorem Emits.postPublish_publish : Emits [] s (postPublish (publish t)) :=
  (h.emit .publish).of_trace (postPublish_trace _)

theorem Emits.postPublish_acknowledge : Emits [ackOkByte] s (postPublish (acknowledge ackOkByte (publish t))) :=
  ((h.emit .publish).emit (.linkOut ackOkByte)).of_trace (postPublish_trace _)

theorem Emits.acknowledgeError : Emits [ackErrByte] s (acknowledge ackErrByte t) := h.emit (.linkOut ackErrByte)

theorem execCobsTerm_emitsNone : EndsIn (Emits [] s) (execCobsTerm t) := by
  refine ((emitsNone_decodeClosed s).execDecCobs h).andThen fun u hu => ?_
  unfold afterCobs
  split
  · exact Emits.postPublish_publish (t := resetAccum (endDecode u)) hu
  · exact hu

theorem execTextLf_oneAck (hf : s.cfg.framing = .text) : EndsIn (OneAck s) (execTextLf t) := by
  refine ((emitsNone_decodeClosed s).execDecText h).andThen fun u hu => .inr ⟨hf, ?_⟩
  have hu : Emits [] s (resetAccum (endDecode u)) := hu
  unfold afterText
  split
  · exact .inl hu.postPublish_acknowledge
  · exact .inr hu.acknowledgeError

/-- A byte of a record is stored, or finds the buffer full, which only the text framing acknowledges (R204, R205). -/
theorem storeOrOverflow_oneAck {d : Byte} (hcfg : t.cfg = s.cfg) :
    EndsIn (OneAck s) (if t.rxLen < t.cfg.rxcap then storeRecord d t else .next (resetOverflow t)) := by
  have hfail : Emits [] s (Machine.emit (.fail .overflow) t) := h.emit (.fail .overflow)
  unfold resetOverflow
  split
  · exact (endsIn_writeByte (P := Emits [] s) (by exact h)).andThen fun _ hu => .inl hu
  · split
    · exact .inl hfail
    next hf => exact .inr ⟨hcfg ▸ hf, .inr (hfail.emit (.linkOut ackErrByte))⟩

theorem execRawData_oneAck {d : Byte} (hf : s.cfg.framing = .text) : EndsIn (OneAck s) (execRawData d t) := by
  unfold execRawData
  split
  · refine (endsIn_writeByte (P := Emits [] s) (by exact h)).andThen fun u hu => ?_
    split
    · exact .inr ⟨hf, .inl (Emits.postPublish_acknowledge (t := { rawAdvance u with rawOffset := 0 }) hu)⟩
    · exact .inl hu
  · exact .inr ⟨hf, .inr ((h.emit (.fail .accounting)).emit (.linkOut ackErrByte))⟩

end

theorem rxStep_oneAck (s : State) : EndsIn (OneAck s) (rxStep s) := by
  unfold rxStep
  split
  · unfold rxEncoderOp
    split
    · exact (encoderOp_emitsNone s).oneAck
    · exact endsIn_fault
  · split
    · exact .inl (.refl s)
    next d rest _ =>
      have h : Emits [] s (consumeLink d rest s) := (Emits.refl s).emit (.linkIn d)
      generalize linkOp s d = i, linkOp_class s d = hclass
      cases hclass with
      | cobsTerm => exact (execCobsTerm_emitsNone h).oneAck
      | textLf hf => exact execTextLf_oneAck h hf
      | cobsData | textData => exact storeOrOverflow_oneAck h rfl
      | rawData hf => exact execRawData_oneAck h hf
      | textCr | textSent1 => exact .inl h

/-! ## Every turn -/

theorem turnStep_oneAck (turn : Turn) (s : State) : EndsIn (OneAck s) (turnStep turn s) := by
  cases turn with
  | rx => exact rxStep_oneAck s
  | rf => exact (rfStep_emitsNone s).oneAck
  | env m => cases m <;> exact .inl (.refl s)

/-- Settles O32, turn by turn. -/
theorem oneAcknowledgeAtMost : Obligations.OneAcknowledgeAtMost := by
  intro s t hstep
  have h := (turnStep_oneAck _ _).of_eq (turnStep_of_step hstep)
  rw [nextTurn_snd_eq s] at h
  rcases h with ⟨es, htrace, hacks⟩ | ⟨hf, ⟨es, htrace, hacks⟩ | ⟨es, htrace, hacks⟩⟩
  · exact ⟨es, htrace, by simp [hacks]⟩
  · have htext : s.cfg.framing = .text := hf
    exact ⟨es, htrace, by simp [hacks, htext, ackOkByte]⟩
  · have htext : s.cfg.framing = .text := hf
    exact ⟨es, htrace, by simp [hacks, htext, ackErrByte]⟩

end Sys2Proof.Machine
end

section
/-! PROOFS. `DEC.COBS` against the reference decoder of a record (R210): block by block it outputs what they yield, and
stops at the first malformed block or at the end of `FB`, whichever it meets first (R207, R212, R215). -/

namespace Sys2Proof.Machine

/-! ## What a decode has output -/

/-- From `s` a decode has output `payload` as far as `FB` has room: all of it, and then failed if a block after it is
malformed, or up to the end of `FB`, where it failed (R207, R215). -/
inductive Decoded (payload : List Byte) (framed : Bool) (s : State) : State → Prop
  | written {t : State} : framed = true → s.dec.o + payload.length ≤ frameBytes s.cfg → Outputs payload s t →
      t.dec.status = s.dec.status → Decoded payload framed s t
  | malformed {u : State} : framed = false → s.dec.o + payload.length ≤ frameBytes s.cfg → Outputs payload s u →
      Decoded payload framed s (raiseFail .framing u)
  | overflowed {u : State} : frameBytes s.cfg < s.dec.o + payload.length →
      Outputs (payload.take (frameBytes s.cfg - s.dec.o)) s u → Decoded payload framed s (raiseFail .overflow u)

/-- A payload output in full, and what is output after it. -/
theorem Decoded.prepend {as bs : List Byte} {framed : Bool} {s t u : State} (h : Decoded bs framed t u)
    (hfits : s.dec.o + as.length ≤ frameBytes s.cfg) (hfirst : Outputs as s t) (hstatus : t.dec.status = s.dec.status) :
    Decoded (as ++ bs) framed s u := by
  have hcfg := hfirst.cfg
  have hposition := hfirst.position
  cases h with
  | written hframed hroom houtputs hst =>
    rw [hcfg, hposition, Nat.add_assoc, ← List.length_append] at hroom
    exact .written hframed hroom (hfirst.append houtputs) (hst.trans hstatus)
  | malformed hframed hroom houtputs =>
    rw [hcfg, hposition, Nat.add_assoc, ← List.length_append] at hroom
    exact .malformed hframed hroom (hfirst.append houtputs)
  | overflowed hlong houtputs =>
    rw [hcfg, hposition] at hlong houtputs
    refine .overflowed (by rwa [List.length_append, ← Nat.add_assoc]) ?_
    rw [List.take_append, List.take_of_length_le (by omega), Nat.sub_sub]
    exact hfirst.append houtputs

/-- A payload that does not fit is all that is output, whatever were to come after it. -/
theorem decoded_of_overflow {as bs : List Byte} {framed : Bool} {s u : State} (ho : s.dec.o ≤ frameBytes s.cfg)
    (hlong : frameBytes s.cfg < s.dec.o + as.length) (h : Outputs (as.take (frameBytes s.cfg - s.dec.o)) s u) :
    Decoded (as ++ bs) framed s (raiseFail .overflow u) := by
  refine .overflowed (by rw [List.length_append]; omega) ?_
  rwa [List.take_append_of_le_length (by omega)]

/-! ## The bytes of a record -/

/-- The bytes of the record from the read position to its end. -/
abbrev restOfRecord (s : State) : List Byte := blockLiterals s (s.dec.n - s.dec.i)

theorem take_blockLiterals {s : State} {n k : Nat} (h : k ≤ n) :
    (blockLiterals s n).take k = blockLiterals s k := by
  refine List.ext_getElem (by simpa using h) fun j _ _ => ?_
  simp

theorem drop_blockLiterals {s t : State} {n k : Nat} (hi : t.dec.i = s.dec.i + k) (hrxb : t.rxb = s.rxb) :
    (blockLiterals s n).drop k = blockLiterals t (n - k) := by
  refine List.ext_getElem (by simp) fun j _ _ => ?_
  simp [currentByte, bufOf, hi, hrxb, Nat.add_assoc]

theorem restOfRecord_cons {s : State} (h : s.dec.i < s.dec.n) :
    restOfRecord s = currentByte s .rxb s.dec.i :: restOfRecord (advanceIn s) := by
  have hlen : s.dec.n - s.dec.i = s.dec.n - (s.dec.i + 1) + 1 := by omega
  rw [restOfRecord, hlen, blockLiterals, List.range'_succ]
  rfl

theorem restOfRecord_startDecode {s : State} {record : List Byte} (h : HoldsRecord s record) :
    restOfRecord (startDecode s) = record := by
  obtain ⟨hlen, hbytes⟩ := h
  refine List.ext_getElem (by simpa using hlen) fun j _ hj => ?_
  simp [currentByte, bufOf, hbytes j hj, cellValue, hj]

/-! ## A block -/

/-- The bytes of a block whose code byte has been read: its literals, and a zero unless the code is `0xFF` or the block
ends the record (R99). -/
def blockBytes (c : Byte) (s : State) : List Byte :=
  blockLiterals s (c.toNat - 1) ++ if c ≠ 0xFF ∧ s.dec.i + (c.toNat - 1) < s.dec.n then [0x00] else []

theorem runCode_of_malformed {c : Byte} {s : State} (h : c = 0x00 ∨ s.dec.n < s.dec.i + (c.toNat - 1)) :
    runCode c s = .next (raiseFail .framing s) := by
  unfold runCode
  split
  · rfl
  next hc =>
    have hlong := h.resolve_left hc
    split
    next hmax =>
      subst hmax
      exact if_pos hlong
    · exact if_pos hlong

theorem runCode_of_code {c : Byte} {s : State} (hc : c ≠ 0x00) (hmax : c ≠ 0xFF) :
    runCode c s = exec (.cobsCode c) s := by
  rw [runCode_eq, decodeCode, if_neg hc, if_neg (by exact hmax)]

/-- After its literals a block has its zero due or not (R99, R213, R214). -/
theorem runCode_of_literals {c : Byte} {s t : State} (hc : c ≠ 0x00) (hi : s.dec.i + (c.toNat - 1) ≤ s.dec.n)
    (hfailed : decFailed s = false) (hcopy : copyLiterals (c.toNat - 1) s = .next t)
    (hdec : t.dec = { s.dec with i := s.dec.i + (c.toNat - 1), o := s.dec.o + (c.toNat - 1) }) :
    runCode c s = if c ≠ 0xFF ∧ s.dec.i + (c.toNat - 1) < s.dec.n then outByte 0x00 t else .next t := by
  by_cases hmax : c = 0xFF
  · subst hmax
    exact (execCobsCodeFF_of_fits hi).trans hcopy
  · rw [runCode_of_code hc hmax, execCobsCode_of_literals hi hfailed hcopy hdec]
    simp only [ne_eq, hmax, not_false_eq_true, true_and]

theorem runCode_of_failed_literals {c : Byte} {s t : State} (hc : c ≠ 0x00)
    (hi : s.dec.i + (c.toNat - 1) ≤ s.dec.n) (hcopy : copyLiterals (c.toNat - 1) s = .next (raiseFail .overflow t)) :
    runCode c s = .next (raiseFail .overflow t) := by
  by_cases hmax : c = 0xFF
  · subst hmax
    exact (execCobsCodeFF_of_fits hi).trans hcopy
  · rw [runCode_of_code hc hmax, execCobsCode_of_fits hi, hcopy, unlessFailed_next, decFailed_raiseFail, if_pos rfl]

section
variable {c : Byte} {s : State} (hc : c ≠ 0x00) (hi : s.dec.i + (c.toNat - 1) ≤ s.dec.n)
  (hn : s.dec.n ≤ s.cfg.rxcap) (hfailed : decFailed s = false)
include hc hi hn hfailed

/-- A block that fits is output, and the locals stand after it. -/
theorem runCode_of_block_fits (ho : s.dec.o + (blockBytes c s).length ≤ frameBytes s.cfg) :
    ∃ t, runCode c s = .next t ∧ Outputs (blockBytes c s) s t ∧
      t.dec = { s.dec with i := s.dec.i + (c.toNat - 1), o := s.dec.o + (blockBytes c s).length } := by
  rw [blockBytes, List.length_append, length_blockLiterals] at ho ⊢
  obtain ⟨t, hcopy, houtputs, hdec⟩ :=
    copyLiterals_of_fits (m := c.toNat - 1) (s := s) (by omega) (by omega)
  have hcode := runCode_of_literals hc hi hfailed (hcopy 0) hdec
  split at hcode
  next hzero =>
    rw [if_pos hzero] at ho ⊢
    have hroom : t.dec.o < frameBytes t.cfg := by
      rw [houtputs.cfg, hdec]
      exact ho
    refine ⟨_, hcode.trans (outByte_of_lt hroom), houtputs.append (outputs_output t 0x00 rfl), ?_⟩
    simp only [hdec]
    rfl
  next hzero =>
    rw [if_neg hzero, List.append_nil]
    exact ⟨t, hcode, houtputs, hdec⟩

/-- A block that does not fit is output up to the end of `FB`. -/
theorem runCode_of_block_overflow (ho : s.dec.o ≤ frameBytes s.cfg)
    (hlong : frameBytes s.cfg < s.dec.o + (blockBytes c s).length) :
    ∃ u, runCode c s = .next (raiseFail .overflow u) ∧
      Outputs ((blockBytes c s).take (frameBytes s.cfg - s.dec.o)) s u := by
  by_cases hliterals : frameBytes s.cfg < s.dec.o + (c.toNat - 1)
  · obtain ⟨u, hcopy, houtputs, -⟩ := copyLiterals_of_overflow (m := c.toNat - 1) (s := s) (by omega) ho hliterals
    refine ⟨u, runCode_of_failed_literals hc hi hcopy, ?_⟩
    rwa [blockBytes, List.take_append_of_le_length (by rw [length_blockLiterals]; omega),
      take_blockLiterals (by omega)]
  · obtain ⟨u, hcopy, houtputs, hdec⟩ :=
      copyLiterals_of_fits (m := c.toNat - 1) (s := s) (by omega) (by omega)
    have hcode := runCode_of_literals hc hi hfailed (hcopy 0) hdec
    rw [blockBytes, List.length_append, length_blockLiterals] at hlong
    split at hlong
    next hzero =>
      rw [List.length_singleton] at hlong
      have hfull : frameBytes u.cfg ≤ u.dec.o := by
        rw [houtputs.cfg, hdec]
        simp only
        omega
      refine ⟨u, hcode.trans ((if_pos hzero).trans (outByte_of_ge hfull)), ?_⟩
      have hlen : frameBytes s.cfg - s.dec.o = (blockLiterals s (c.toNat - 1)).length := by
        rw [length_blockLiterals]
        omega
      rwa [blockBytes, hlen, List.take_left]
    next => exact absurd hlong hliterals

end

/-! ## The blocks of a record -/

theorem cobsBlocksOf_malformed {fuel : Nat} {c : Byte} {rest : List Byte}
    (h : c = 0x00 ∨ rest.length < c.toNat - 1) : cobsBlocksOf (fuel + 1) (c :: rest) = ([], false) := by
  rw [cobsBlocksOf, if_pos h]

/-- The reference decoder on a block that stays in its record gives the bytes of the block, then those of the rest. -/
theorem cobsBlocksOf_restOfRecord {fuel : Nat} {c : Byte} {s : State} (hc : c ≠ 0x00)
    (hi : s.dec.i + (c.toNat - 1) ≤ s.dec.n) :
    cobsBlocksOf (fuel + 1) (c :: restOfRecord s) =
      (blockBytes c s ++ (cobsBlocksOf fuel ((restOfRecord s).drop (c.toNat - 1))).1,
        (cobsBlocksOf fuel ((restOfRecord s).drop (c.toNat - 1))).2) := by
  have hliterals : c.toNat - 1 ≤ s.dec.n - s.dec.i := by omega
  have hzero : c.toNat - 1 < s.dec.n - s.dec.i ↔ s.dec.i + (c.toNat - 1) < s.dec.n := by omega
  rw [cobsBlocksOf_block hc (by rwa [length_blockLiterals]), take_blockLiterals hliterals, length_blockLiterals]
  simp only [hzero, blockBytes]

/-- The blocks of a record give what the reference decoder gives for the bytes they have left to read (R210). -/
theorem cobsBlocks_decoded {fuel : Nat} {s : State} (hn : s.dec.n ≤ s.cfg.rxcap) (ho : s.dec.o ≤ frameBytes s.cfg)
    (hfailed : decFailed s = false) :
    ∃ t, cobsBlocks fuel s = .next t ∧
      Decoded (cobsBlocksOf fuel (restOfRecord s)).1 (cobsBlocksOf fuel (restOfRecord s)).2 s t := by
  induction fuel generalizing s with
  | zero => exact ⟨s, rfl, .written rfl ho (.nil s) rfl⟩
  | succ fuel ih =>
    by_cases hlt : s.dec.i < s.dec.n
    · have hread : cobsBlocks (fuel + 1) s =
          unlessFailed (runCode (currentByte s .rxb s.dec.i) (advanceIn s)) (cobsBlocks fuel) := by
        rw [cobsBlocks, if_pos hlt, readThen_rxb_of_lt (by omega)]
      rw [hread, restOfRecord_cons hlt]
      generalize currentByte s .rxb s.dec.i = c
      by_cases hbad : c = 0x00 ∨ s.dec.n < s.dec.i + 1 + (c.toNat - 1)
      · rw [runCode_of_malformed hbad, unlessFailed_next, decFailed_raiseFail, if_pos rfl,
          cobsBlocksOf_malformed (hbad.imp_right fun h => by simp only [length_blockLiterals, advanceIn_dec]; omega)]
        exact ⟨_, rfl, .malformed rfl ho ((Outputs.nil (advanceIn s)).of_locals rfl rfl)⟩
      · obtain ⟨hc, hi⟩ := not_or.mp hbad
        have hi : (advanceIn s).dec.i + (c.toNat - 1) ≤ (advanceIn s).dec.n := Nat.le_of_not_lt hi
        rw [cobsBlocksOf_restOfRecord hc hi]
        by_cases hroom : s.dec.o + (blockBytes c (advanceIn s)).length ≤ frameBytes s.cfg
        · obtain ⟨t, hcode, houtputs, hdec⟩ := runCode_of_block_fits hc hi hn hfailed hroom
          have hcfg : t.cfg = s.cfg := houtputs.cfg
          have hlen : t.dec.n = s.dec.n := by rw [hdec]; rfl
          have hread : t.dec.i = (advanceIn s).dec.i + (c.toNat - 1) := by rw [hdec]
          have hstatus : t.dec.status = s.dec.status := by rw [hdec]; rfl
          have hgoes : decFailed t = false := (decFailed_of_status hstatus).trans hfailed
          have hrest : (restOfRecord (advanceIn s)).drop (c.toNat - 1) = restOfRecord t := by
            rw [drop_blockLiterals hread (by rw [houtputs.others]), restOfRecord, hlen, hread, Nat.sub_sub]
            rfl
          obtain ⟨u, hblocks, hdecoded⟩ := ih (s := t) (by rwa [hcfg, hlen])
            (by rw [hcfg, houtputs.position]; exact hroom) hgoes
          rw [hcode, unlessFailed_next, hgoes, if_neg Bool.false_ne_true, hrest]
          exact ⟨u, hblocks, hdecoded.prepend hroom (houtputs.of_locals rfl rfl) hstatus⟩
        · obtain ⟨u, hcode, houtputs⟩ :=
            runCode_of_block_overflow hc hi hn hfailed ho (Nat.lt_of_not_le hroom)
          rw [hcode, unlessFailed_next, decFailed_raiseFail, if_pos rfl]
          exact ⟨_, rfl, decoded_of_overflow ho (Nat.lt_of_not_le hroom) (houtputs.of_locals rfl rfl)⟩
    · have hrest : restOfRecord s = [] := by
        rw [restOfRecord, Nat.sub_eq_zero_of_le (Nat.le_of_not_lt hlt)]
        rfl
      rw [hrest, cobsBlocks, if_neg hlt]
      exact ⟨s, rfl, .written rfl ho (.nil s) rfl⟩

/-! ## The end of a record -/

/-- How a decode ends that has output `payload` as far as the `size` bytes of `FB` have room, from its last state to the
one it answers: the first check that fails is the result (R306). -/
inductive Ended (payload : List Byte) (framed : Bool) (size : Nat) (t : State) : State → Prop
  | ok : framed = true → payload.length = size →
      Ended payload framed size t { t with dec := { t.dec with status := .ok } }
  | length : framed = true → payload.length < size → Ended payload framed size t (raiseFail .length t)
  | framing : framed = false → payload.length ≤ size → Ended payload framed size t (raiseFail .framing t)
  | overflow : size < payload.length → Ended payload framed size t (raiseFail .overflow t)

/-- The exact-length check of a record whose blocks all fit (R208). -/
theorem ended_finishDecode {payload : List Byte} {t : State} (ho : t.dec.o = payload.length)
    (hfits : payload.length ≤ frameBytes t.cfg) : Ended payload true (frameBytes t.cfg) t (finishDecode t) := by
  unfold finishDecode
  split
  next hlen => exact .ok rfl (ho ▸ hlen)
  next hlen => exact .length rfl (by omega)

section
variable {payload : List Byte} {framed : Bool} {size : Nat} {t u : State} (h : Ended payload framed size t u)
include h

/-- The end of a record writes nothing. -/
theorem Ended.same : u.fb = t.fb ∧ u.dec.o = t.dec.o := by
  cases h <;> exact ⟨rfl, rfl⟩

theorem Ended.success_or_failure :
    (u.dec.status = .ok ∧ payload.length = size ∧ u.trace = t.trace) ∨
      ∃ k, k ≠ .accounting ∧ u.dec.status = .failed k ∧ u.trace = t.trace ++ [.fail k] := by
  cases h with
  | ok _ hlen => exact .inl ⟨rfl, hlen, rfl⟩
  | length => exact .inr ⟨.length, nofun, rfl, rfl⟩
  | framing => exact .inr ⟨.framing, nofun, rfl, rfl⟩
  | overflow => exact .inr ⟨.overflow, nofun, rfl, rfl⟩

theorem Ended.status_iff :
    (u.dec.status = .ok ↔ framed = true ∧ payload.length = size) ∧
    (u.dec.status = .failed .length ↔ framed = true ∧ payload.length < size) ∧
    (u.dec.status = .failed .framing ↔ framed = false ∧ payload.length ≤ size) ∧
    (u.dec.status = .failed .overflow ↔ size < payload.length) := by
  cases h with
  | ok hframed hlen => simp [hframed, hlen]
  | length hframed hlen => simp [hframed, hlen, hlen.ne, hlen.le]
  | framing hframed hlen => simp [hframed, hlen]
  | overflow hlen => simp [hlen, hlen.ne', hlen.le]

end

/-- What stands in `FB` after a decode has output `bytes` from the start of it. -/
theorem Outputs.from_start {bytes : List Byte} {s t : State} (h : Outputs bytes (startDecode s) t) :
    t.dec.o = bytes.length ∧ (∀ j, j < bytes.length → memGet t.fb j = bytes[j]?) ∧
      ∀ a, bytes.length ≤ a → memGet t.fb a = memGet s.fb a := by
  refine ⟨h.position.trans (Nat.zero_add _), fun j hj => ?_, fun a ha => h.elsewhere a (.inr ?_)⟩
  · have hwritten := h.written j hj
    rwa [startDecode_dec, Nat.zero_add, ← List.getElem?_eq_getElem hj] at hwritten
  · rwa [startDecode_dec, Nat.zero_add]

/-- `DEC.COBS` outputs the payload of its record as far as it fits, and ends as the payload and the blocks say. -/
theorem execDecCobs_ended {s : State} {record : List Byte} (h : s.rxLen ≤ s.cfg.rxcap)
    (hrecord : restOfRecord (startDecode s) = record) :
    ∃ t u, execDecCobs s = .next u ∧ Outputs ((cobsPayload record).take (frameBytes s.cfg)) (startDecode s) t ∧
      Ended (cobsPayload record) (cobsFramed record) (frameBytes s.cfg) t u := by
  obtain ⟨v, hblocks, hdecoded⟩ := cobsBlocks_decoded (fuel := s.rxLen) (s := startDecode s) h (Nat.zero_le _) rfl
  have hfuel : record.length = s.rxLen := by
    rw [← hrecord]
    exact length_blockLiterals ..
  rw [hrecord] at hdecoded
  rw [execDecCobs, hblocks, unlessFailed_next, cobsPayload, cobsFramed, hfuel]
  generalize (cobsBlocksOf s.rxLen record).1 = payload, (cobsBlocksOf s.rxLen record).2 = framed at hdecoded ⊢
  have room : (startDecode s).dec.o + payload.length = payload.length := Nat.zero_add _
  cases hdecoded with
  | written hframed hroom houtputs hstatus =>
    have hgoes : decFailed v = false := decFailed_of_status hstatus
    have hcfg : v.cfg = s.cfg := houtputs.cfg
    rw [room, startDecode_cfg] at hroom
    rw [hgoes, if_neg Bool.false_ne_true, List.take_of_length_le hroom, hframed, ← hcfg]
    exact ⟨v, _, rfl, houtputs, ended_finishDecode (houtputs.position.trans room) (by rwa [hcfg])⟩
  | malformed hframed hroom houtputs =>
    rw [room, startDecode_cfg] at hroom
    rw [decFailed_raiseFail, if_pos rfl, List.take_of_length_le hroom]
    exact ⟨_, _, rfl, houtputs, .framing hframed hroom⟩
  | overflowed hlong houtputs =>
    rw [room, startDecode_cfg] at hlong
    rw [decFailed_raiseFail, if_pos rfl]
    exact ⟨_, _, rfl, houtputs, .overflow hlong⟩

/-- Settles O12: the record is what the receive buffer holds, and its decode ends in one of four ways. -/
theorem cobsDecodeCompletesInBounds : Obligations.CobsDecodeCompletesInBounds := by
  intro s h
  obtain ⟨t, u, hexec, houtputs, hended⟩ := execDecCobs_ended h rfl
  obtain ⟨hposition, hwritten, helsewhere⟩ := houtputs.from_start
  obtain ⟨hfb, ho⟩ := hended.same
  have htrace : t.trace = s.trace := houtputs.trace
  rw [← hposition, ← ho] at hwritten helsewhere
  rw [List.length_take, Nat.min_comm, ← ho] at hposition
  rw [← hfb] at hwritten helsewhere
  refine ⟨u, hexec, (execDecCobs_sameButDecode s).of_eq hexec, ?_, hposition.trans_le (Nat.min_le_right ..), helsewhere,
    fun record hrecord => ?_⟩
  · rw [← htrace]
    refine hended.success_or_failure.imp_left fun ⟨hok, hlen, hsame⟩ => ⟨hok, ?_, hsame⟩
    rw [hposition, hlen, Nat.min_self]
  · rw [restOfRecord_startDecode hrecord] at hposition hwritten hended
    refine ⟨hposition, fun j hj => ?_, hended.status_iff⟩
    rw [hwritten j hj, List.getElem?_take_of_lt (by omega)]

end Sys2Proof.Machine
end

section
/-! PROOFS. The brightness of a sub-pixel (R133 to R139): its value as the corrected channel divided by 4, its bits
weighted by the hold labels, and its order under a non-decreasing table. The two ends of an encode pass (R140, R142). -/

namespace Sys2Proof.Machine

/-! ## The value of a sub-pixel -/

/-- A channel shifted up to eight bits is its product by a power of two (R133). -/
theorem setWidth_shiftLeft_eq_ofNat {w : Nat} (v : BitVec w) (k : Nat) :
    v.setWidth 8 <<< k = BitVec.ofNat 8 (2 ^ k * v.toNat) := by
  apply BitVec.eq_of_toNat_eq
  simp [Nat.shiftLeft_eq, Nat.mul_comm]

/-- The discarded bits are dropped, never rounded (R135). -/
theorem toNat_quantise (g : Byte) : (quantise g).toNat = g.toNat / 4 := by
  have := g.isLt
  simp only [quantise, BitVec.toNat_setWidth, BitVec.toNat_ushiftRight, Nat.shiftRight_eq_div_pow]
  omega

theorem toNat_quant5 (g : Vector Byte 256) (v : BitVec 5) :
    (quant5 g v).toNat = (gammaAt g (BitVec.ofNat 8 (8 * v.toNat))).toNat / 4 := by
  rw [quant5, toNat_quantise, setWidth_shiftLeft_eq_ofNat]
  rfl

theorem toNat_quant6 (g : Vector Byte 256) (v : BitVec 6) :
    (quant6 g v).toNat = (gammaAt g (BitVec.ofNat 8 (4 * v.toNat))).toNat / 4 := by
  rw [quant6, toNat_quantise, setWidth_shiftLeft_eq_ofNat]
  rfl

/-- Settles O34, from the expansion as a product and the quantisation as a quotient. -/
theorem subPixelValue : Obligations.SubPixelValue :=
  fun g v w => ⟨toNat_quant5 g v, toNat_quant6 g w⟩

/-- The channel values are the fields of the two pixels (R132). -/
theorem channels_eq_fields (u l : Pixel) :
    channels u l =
      [(red5 u).toNat, (green6 u).toNat, (blue5 u).toNat, (red5 l).toNat, (green6 l).toNat, (blue5 l).toNat] := by
  obtain ⟨hru, hgu, hbu, -⟩ := pixelFieldsAsNumbers u 0 0
  obtain ⟨hrl, hgl, hbl, -⟩ := pixelFieldsAsNumbers l 0 0
  rw [channels, hru, hgu, hbu, hrl, hgl, hbl]

theorem map_toNat_subPixels (g : Vector Byte 256) (u l : Pixel) :
    (subPixels g u l).map BitVec.toNat = levels g u l := by
  simp [subPixels, levels, channels_eq_fields, toNat_quant5, toNat_quant6]

theorem toNat_getD_subPixels (g : Vector Byte 256) (u l : Pixel) (k : Nat) :
    ((subPixels g u l).getD k 0).toNat = (levels g u l).getD k 0 := by
  rw [← map_toNat_subPixels]
  exact (List.getD_map (f := BitVec.toNat) ..).symm

/-! ## On-time -/

/-- The low bits of a number, weighted by their powers of two, sum to what they hold. -/
theorem sum_testBit_mul_two_pow (n m : Nat) :
    ((List.range n).map fun b => (m.testBit b).toNat * 2 ^ b).sum = m % 2 ^ n := by
  induction n with
  | zero => simp [Nat.mod_one]
  | succ n ih =>
    rw [List.range_succ, List.map_append, List.sum_append, ih, Nat.mod_pow_succ, Nat.mul_comm (2 ^ n),
      ← Nat.toNat_testBit]
    simp

/-- The bits of a sub-pixel, each held for its label, are held for its value times `T_UNIT` (R139, R167). -/
theorem weightedOnTime_eq (c : Config) (u l : Pixel) (k : Nat) :
    weightedOnTime c u l k = ((subPixels c.gamma u l).getD k 0).toNat * c.tUnit := by
  have hbit := getLsbD_planeByte (qs := subPixels c.gamma u l) (by simp [subPixels])
  simp only [weightedOnTime, hbit, holdLabel_eq, ← Nat.mul_assoc, List.sum_map_mul_right]
  exact congrArg (· * c.tUnit) ((sum_testBit_mul_two_pow 6 _).trans (Nat.mod_eq_of_lt (BitVec.isLt _)))

/-- The labels of a refresh cycle's holds (R177). -/
theorem sum_holdLabel (c : Config) : ((List.range 6).map (holdLabel c)).sum = 63 * c.tUnit := by
  simp only [funext (holdLabel_eq c), List.sum_map_mul_right]
  rfl

/-! ## A non-decreasing table -/

/-- The premise of R139's order that the spec does not give. -/
abbrev GammaNonDecreasing (g : Vector Byte 256) : Prop :=
  ∀ i j : Byte, i.toNat ≤ j.toNat → (gammaAt g i).toNat ≤ (gammaAt g j).toNat

/-- An expanded channel that stays a byte indexes the table in the channel's order. -/
theorem gammaAt_ofNat_le {g : Vector Byte 256} (hg : GammaNonDecreasing g) {m n : Nat} (h : m ≤ n) (hn : n < 256) :
    (gammaAt g (BitVec.ofNat 8 m)).toNat ≤ (gammaAt g (BitVec.ofNat 8 n)).toNat := by
  apply hg
  rwa [BitVec.toNat_ofNat, BitVec.toNat_ofNat, Nat.mod_eq_of_lt (h.trans_lt hn), Nat.mod_eq_of_lt hn]

theorem quant5_le {g : Vector Byte 256} (hg : GammaNonDecreasing g) {v w : BitVec 5} (h : v.toNat ≤ w.toNat) :
    (quant5 g v).toNat ≤ (quant5 g w).toNat := by
  rw [toNat_quant5, toNat_quant5]
  exact Nat.div_le_div_right (gammaAt_ofNat_le hg (by omega) (by omega))

theorem quant6_le {g : Vector Byte 256} (hg : GammaNonDecreasing g) {v w : BitVec 6} (h : v.toNat ≤ w.toNat) :
    (quant6 g v).toNat ≤ (quant6 g w).toNat := by
  rw [toNat_quant6, toNat_quant6]
  exact Nat.div_le_div_right (gammaAt_ofNat_le hg (by omega) (by omega))

/-- A sub-pixel is ordered as its channel is, whichever pixel's red, green or blue it is. -/
theorem subPixels_le {g : Vector Byte 256} (hg : GammaNonDecreasing g) {u l u' l' : Pixel} {k : Nat}
    (h : (channels u l).getD k 0 ≤ (channels u' l').getD k 0) :
    ((subPixels g u l).getD k 0).toNat ≤ ((subPixels g u' l').getD k 0).toNat := by
  rw [channels_eq_fields, channels_eq_fields] at h
  match k with
  | 0 | 2 | 3 | 5 => exact quant5_le hg h
  | 1 | 4 => exact quant6_le hg h
  | _ + 6 => exact Nat.le_refl _

/-- Settles O36: the on-time is the sub-pixel value times `T_UNIT`, and each value is ordered as its channel. -/
theorem brightnessLaw : Obligations.BrightnessLaw := by
  intro c u l
  refine ⟨fun k _ => ⟨weightedOnTime_eq c u l k, ?_⟩, sum_holdLabel c,
    fun hg => ⟨fun u' l' k h => ?_, fun _ _ => quant5_le hg, fun _ _ => quant6_le hg⟩⟩
  · rw [weightedOnTime_eq, toNat_getD_subPixels]
  · rw [weightedOnTime_eq, weightedOnTime_eq]
    exact Nat.mul_le_mul_right _ (subPixels_le hg h)

/-! ## The ends of an encode pass -/

theorem startPass_receive {s : State} (h : s.cfg.encPlace = .receive) :
    startPass s = { s with encActive := true, encR := 0, encX := 0 } := by
  simp [startPass, h]

theorem startPass_refresh {s : State} (h : s.cfg.encPlace = .refresh) :
    startPass s = startReaderPass { s with encActive := true, encR := 0, encX := 0 } := by
  simp [startPass, h]

/-- Settles O37: with `RECEIVE` the sets stay, with `REFRESH` none is listed. -/
theorem encodeStartsAtOrigin : Obligations.EncodeStartsAtOrigin := by
  intro s
  refine ⟨startPass s, rfl, ?_⟩
  cases hp : s.cfg.encPlace with
  | receive =>
    rw [startPass_receive hp]
    exact ⟨rfl, fun _ => rfl, nofun⟩
  | refresh =>
    rw [startPass_refresh hp]
    refine ⟨rfl, nofun, fun _ i => ?_⟩
    rw [candOf_of_unlisted rfl, startReaderPass_cfg, sharedBuf_of_refresh hp]
    rfl

/-- Settles O39: the placement selects the agent whose phase ends the pass. -/
theorem encodeEndReturnsToItsAgent : Obligations.EncodeEndReturnsToItsAgent := by
  refine fun s => ⟨fun hp => ?_, fun hp => ?_⟩ <;> simp [exec, execEncEnd, hp]

end Sys2Proof.Machine
end

section
/-! PROOFS. The operations of the scan driver (R161 to R169): the turn that runs each, and what each leaves. -/

namespace Sys2Proof.Machine

/-! ## The operation of a turn -/

theorem rfStep_of_scanOp {s : State} {i : Instr} (h : scanOp s = some i) : rfStep s = exec i s := by
  rw [rfStep, h]
  rfl

theorem encoderOp_of_pair {s : State} (hactive : s.encActive = true) (hr : s.encR < rows s.cfg) :
    encoderOp s = some .encPair := by
  simp [encoderOp, encPairEnabled, hactive, hr]

theorem encoderOp_of_end {s : State} (hactive : s.encActive = true) (hr : s.encR = rows s.cfg) :
    encoderOp s = some .encEnd := by
  simp [encoderOp, encPairEnabled, encEndEnabled, hactive, hr]

theorem rxStep_of_encode {s : State} {i : Instr} (hphase : s.rxPhase = .encode) (h : rxEncoderOp s = some i) :
    rxStep s = exec i s := by
  rw [rxStep, hphase, h]
  rfl

/-- The state once a turn is used up differs in the schedule or the counter of free values only (R318). -/
theorem eq_of_nextTurn {s s1 : State} {turn : Turn} (h : nextTurn s = (turn, s1)) :
    ∃ sched tick, s1 = { s with sched := sched, tick := tick } := by
  have hs1 := nextTurn_snd_eq s
  rw [h] at hs1
  exact ⟨_, _, hs1⟩

section
variable {s s1 : State} {i : Instr} (hc : configOk s.cfg = true)
include hc

/-- The use of a turn leaves the position whose operation the turn runs (R160). -/
theorem step_of_rfTurn (hturn : nextTurn s = (.rf, s1)) (hop : scanOp s = some i) : step s = exec i s1 := by
  obtain ⟨sched, tick, rfl⟩ := eq_of_nextTurn hturn
  rw [step_of_configOk hc, hturn]
  exact rfStep_of_scanOp (s := { s with sched := sched, tick := tick }) hop

/-- The same for a pass in the receive context (R284). -/
theorem step_of_rxEncodeTurn (hturn : nextTurn s = (.rx, s1)) (hphase : s.rxPhase = .encode)
    (hop : rxEncoderOp s = some i) : step s = exec i s1 := by
  obtain ⟨sched, tick, rfl⟩ := eq_of_nextTurn hturn
  rw [step_of_configOk hc, hturn]
  exact rxStep_of_encode (s := { s with sched := sched, tick := tick }) hphase hop

end

/-- Settles O6: the operation of each position, run by the agent that stands there. -/
theorem stepRunsSequencedOperation : Obligations.StepRunsSequencedOperation := by
  refine fun s s1 hc => ⟨fun hturn => ?_, fun hturn hphase hp hactive => ?_⟩
  · have run {i : Instr} (hop : scanOp s = some i) : step s = exec i s1 := step_of_rfTurn hc hturn hop
    refine ⟨?_, ?_, ?_, ?_, ?_, ?_, ?_, ?_, fun hphase hp => run (by simp [scanOp, hphase, hp]),
      fun hphase hp hactive => ?_⟩
    case refine_9 =>
      have hop : scanOp s = encoderOp s := by simp [scanOp, hphase, hp]
      exact ⟨fun hr => run (hop.trans (encoderOp_of_pair hactive hr)),
        fun hr => run (hop.trans (encoderOp_of_end hactive hr))⟩
    all_goals exact fun hphase => run (by simp [scanOp, hphase])
  · have hop : rxEncoderOp s = encoderOp s := by simp [rxEncoderOp, hp]
    exact ⟨fun hr => step_of_rxEncodeTurn hc hturn hphase (hop.trans (encoderOp_of_pair hactive hr)),
      fun hr => step_of_rxEncodeTurn hc hturn hphase (hop.trans (encoderOp_of_end hactive hr))⟩

/-! ## The output, the address and the latch -/

theorem startsReaderPass_iff {s : State} :
    startsReaderPass s = true ↔ s.sdBit = 0 ∧ s.sdRow = 0 ∧ s.cfg.encPlace = .receive := by
  simp [startsReaderPass, and_assoc]

/-- The state after `SD.BLANK` (R161): at the start of a reader pass no candidate set is listed any more (R73). -/
def blanked (s : State) : State := { s with
  oeLevel := .disabled, sdCol := s.cfg.width - 1, sdPhase := .shift,
  cand := if startsReaderPass s then [] else s.cand, trace := s.trace ++ [.oe .disabled] }

@[simp] theorem blanked_cfg (s : State) : (blanked s).cfg = s.cfg := rfl
@[simp] theorem blanked_sdBit (s : State) : (blanked s).sdBit = s.sdBit := rfl
@[simp] theorem blanked_sdRow (s : State) : (blanked s).sdRow = s.sdRow := rfl
@[simp] theorem blanked_sdPhase (s : State) : (blanked s).sdPhase = .shift := rfl
@[simp] theorem blanked_trace (s : State) : (blanked s).trace = s.trace ++ [.oe .disabled] := rfl

theorem exec_sdBlank (s : State) : exec .sdBlank s = .next (blanked s) := by
  change execSdBlank s = _
  unfold execSdBlank blanked
  split <;> rfl

/-- Settles O41: a set that is not listed is the singleton of its byte, and with `RECEIVE` the byte is one of `BPS`. -/
theorem blankDisablesOutput : Obligations.BlankDisablesOutput := by
  refine fun s => ⟨_, exec_sdBlank s, rfl, fun h i => ?_, fun h => if_neg (mt startsReaderPass_iff.mp h)⟩
  obtain ⟨-, -, hp⟩ := id h
  have hcand : (blanked s).cand = [] := if_pos (startsReaderPass_iff.mpr h)
  have hshared : sharedBuf (blanked s).cfg = .bps := sharedBuf_of_receive hp
  rw [candOf_of_unlisted (by rw [hcand]; rfl), hshared]
  rfl

/-- Settles O43: each phase is its own update; the label of a hold is a power of two. -/
theorem latchAndHoldPhases : Obligations.LatchAndHoldPhases := by
  intro s
  refine ⟨rfl, rfl, rfl, rfl, ?_⟩
  rw [← holdLabel_eq]
  rfl

/-! ## The counters and the frame at the end of a cycle -/

/-- The counters after an iteration, row inner and bit outer, and the phase they lead to (R168). -/
theorem nextIteration_eq (s : State) : nextIteration s =
    { s with
      sdRow := if s.sdRow + 1 < rows s.cfg then s.sdRow + 1 else 0
      sdBit := if s.sdRow + 1 < rows s.cfg then s.sdBit else if s.sdBit + 1 < depthBits then s.sdBit + 1 else 0
      sdPhase :=
        if s.sdRow + 1 < rows s.cfg ∨ s.sdBit + 1 < depthBits ∨ s.cfg.encPlace = .receive then .blank else .take } := by
  unfold nextIteration
  split
  next hrow => simp [hrow]
  next hrow =>
    split
    next hbit => simp [hrow, hbit]
    next hbit => cases hp : s.cfg.encPlace <;> simp [hrow, hbit]

theorem nextIteration_sdPhase_ne_blankEnd (s : State) : (nextIteration s).sdPhase ≠ .blankEnd := by
  rw [nextIteration_eq]
  dsimp only
  split <;> simp

theorem nextIteration_oeLevel (s : State) : (nextIteration s).oeLevel = s.oeLevel := by rw [nextIteration_eq]

/-- Settles O44, clause by clause of the counters. -/
theorem blankEndAdvancesCounters : Obligations.BlankEndAdvancesCounters := by
  intro s
  have hexec : exec .sdBlankEnd s = .next (nextIteration (emit (.oe .disabled) { s with oeLevel := .disabled })) := rfl
  rw [nextIteration_eq] at hexec
  refine ⟨_, hexec, rfl, fun hrow => ?_, fun hrow hbit => ?_, fun hrow hbit => ?_⟩
  · simp [hrow]
  · simp [hrow, depthBits, hbit]
  · cases hp : s.cfg.encPlace <;> simp [hrow, depthBits, hbit, hp]

/-- Settles O45: the take answers the flag, and with `REFRESH` a pass starts as a reader pass. -/
theorem refreshTakeStartsPass : Obligations.RefreshTakeStartsPass := by
  intro s hp
  refine ⟨fun hnew => ?_, fun hnew => ?_⟩
  · rw [exec, execSdTake, takeIfNew_taken, if_pos hnew, startPass_refresh (s := takeIfNew s) hp, takeIfNew, hnew]
    rfl
  · have hnone : ¬ s.hfNew = true := by simp [hnew]
    rw [exec, execSdTake, takeIfNew_taken, if_neg hnone, takeIfNew, hnew]

/-! ## A shifted byte -/

/-- The column after a shift, and the phase after the last one (R162). -/
theorem nextColumn_eq (s : State) : nextColumn s =
    { s with sdCol := s.sdCol - 1, sdPhase := if 0 < s.sdCol then s.sdPhase else .addr } := by
  unfold nextColumn
  split
  · rfl
  next h => rw [Nat.eq_zero_of_not_pos h]

theorem exec_sdShift_of_not_ready {s : State} (h : s.shifterReady = false) : exec .sdShift s = .next s := by
  simp [exec, execSdShift, h]

theorem exec_sdShift_of_ready {s : State} (hready : s.shifterReady = true) (hbit : s.sdBit < depthBits)
    (hrow : s.sdRow < rows s.cfg) (hcol : s.sdCol < s.cfg.width) : exec .sdShift s =
      .next (nextColumn (emit (.shift (readValue s .bps (bpi s.cfg s.sdRow s.sdBit s.sdCol)))
        (afterRead s .bps (bpi s.cfg s.sdRow s.sdBit s.sdCol)))) := by
  rw [exec, execSdShift, if_pos hready, readThen_of_lt (by exact bpi_lt hrow hbit hcol)]

/-- Settles O42: a position in range lies in `BPS`, whose reads draw only with `RECEIVE`. -/
theorem shiftEmitsOnePlaneByte : Obligations.ShiftEmitsOnePlaneByte := by
  refine fun s => ⟨exec_sdShift_of_not_ready, fun hready hbit hrow hcol hsets => ?_⟩
  have hexec := exec_sdShift_of_ready hready hbit hrow hcol
  have hread := afterRead_eq s .bps (bpi s.cfg s.sdRow s.sdBit s.sdCol)
  rw [nextColumn_eq, hread] at hexec
  refine ⟨_, _, hexec, mayRead_readValue (hsets _), rfl, fun h => ⟨rfl, if_pos h⟩, fun h => ?_, fun hp => ?_⟩
  · simp [h]
  · simp [afterRead, sharedBuf_of_refresh hp]

end Sys2Proof.Machine
end

section
/-! PROOFS. Where a turn of `RF` leads: it holds only in `SHIFT` (R175), and the latch is pulsed only with the output
disabled (R174, R348). Both come from one walk over the phases. -/

namespace Sys2Proof.Machine

/-- The position of the refresh context: the phase, the counters, and the encoder's row and column (R44 to R46, R37). -/
abbrev refreshPosition (s : State) : SdPhase × Nat × Nat × Nat × Nat × Nat :=
  (s.sdPhase, s.sdBit, s.sdRow, s.sdCol, s.encR, s.encX)

/-- The phases of the latch and those that lead to it (R174). -/
abbrev LatchPhase (p : SdPhase) : Prop := p = .shift ∨ p = .addr ∨ p = .latOn ∨ p = .latOff ∨ p = .enable

/-- What a turn of `RF` does: it holds on the shifter, or moves; and a move switches the output off, keeps its level in
a phase of the latch, or ends outside those phases (R160). -/
inductive RefreshMove (s : State) : State → Prop
  | held : s.sdPhase = .shift → s.shifterReady = false → RefreshMove s s
  | dark {t : State} : refreshPosition t ≠ refreshPosition s → t.oeLevel = .disabled → RefreshMove s t
  | latching {t : State} : refreshPosition t ≠ refreshPosition s → LatchPhase s.sdPhase → t.oeLevel = s.oeLevel →
      RefreshMove s t
  | scanning {t : State} : refreshPosition t ≠ refreshPosition s → ¬ LatchPhase t.sdPhase → RefreshMove s t

theorem refreshPosition_ne_of_phase {s t : State} (h : t.sdPhase ≠ s.sdPhase) :
    refreshPosition t ≠ refreshPosition s :=
  fun heq => h (congrArg Prod.fst heq)

theorem nextColumn_position (s : State) (h : s.sdPhase = .shift) :
    refreshPosition (nextColumn s) ≠ refreshPosition s := by
  rw [nextColumn_eq]
  by_cases hcol : 0 < s.sdCol
  · have hlt : s.sdCol - 1 ≠ s.sdCol := by omega
    simp [hlt]
  · simp [hcol, h]

theorem nextPair_position (s : State) : refreshPosition (nextPair s) ≠ refreshPosition s := by
  rw [nextPair_eq]
  by_cases h : s.encX + 1 < s.cfg.width <;> simp [h]

theorem execSdShift_refreshMove {s : State} (hphase : s.sdPhase = .shift) :
    EndsIn (RefreshMove s) (execSdShift s) := by
  unfold execSdShift
  split
  · refine endsIn_readThen fun v => ?_
    rw [afterRead_eq]
    refine .latching (nextColumn_position _ hphase) (.inl hphase) ?_
    rw [nextColumn_eq]
    rfl
  next hready => exact .held hphase (by simpa using hready)

theorem execSdTake_refreshMove {s : State} (hphase : s.sdPhase = .take) : EndsIn (RefreshMove s) (execSdTake s) := by
  unfold execSdTake
  split <;> exact .scanning (refreshPosition_ne_of_phase (by simp [hphase])) (by simp [LatchPhase])

/-- A step of the encoder moves its row or column, or ends the pass (R141, R142). -/
theorem encoderOp_refreshMove {s : State} (hphase : s.sdPhase = .enc) (hp : s.cfg.encPlace = .refresh) :
    EndsIn (RefreshMove s) (runOp (encoderOp s) s) := by
  have hclosed : PassClosed fun t => refreshPosition t = refreshPosition s :=
    ⟨fun _ _ h => h, fun _ _ _ h _ _ => h⟩
  refine endsIn_encoderOp (hclosed.execEncPair rfl fun t ht => ?_) ?_
  · have hpair : (nextPair t).sdPhase = .enc := by
      rw [nextPair_eq]
      exact (congrArg Prod.fst ht).trans hphase
    exact .scanning (ht ▸ nextPair_position t) (by simp [hpair])
  · simp only [execEncEnd, hp]
    exact .scanning (refreshPosition_ne_of_phase (by simp [hphase])) (by simp)

theorem rfStep_refreshMove (s : State) : EndsIn (RefreshMove s) (rfStep s) := by
  have toPhase {t : State} (h : t.sdPhase ≠ s.sdPhase) := refreshPosition_ne_of_phase h
  unfold rfStep scanOp
  split
  case h_1 hphase =>
    rw [runOp, exec_sdBlank]
    exact .dark (toPhase (by simp [hphase])) rfl
  case h_2 hphase => exact execSdShift_refreshMove hphase
  case h_3 hphase | h_4 hphase | h_5 hphase =>
    exact .latching (toPhase (by simp [hphase])) (by simp [LatchPhase, hphase]) rfl
  case h_6 hphase | h_7 hphase => exact .scanning (toPhase (by simp [hphase])) (by simp)
  case h_8 hphase =>
    refine .dark (toPhase ?_) (nextIteration_oeLevel _)
    rw [hphase]
    exact nextIteration_sdPhase_ne_blankEnd _
  case h_9 hphase =>
    split
    · exact endsIn_fault
    · exact execSdTake_refreshMove hphase
  case h_10 hphase =>
    split
    · exact endsIn_fault
    · exact encoderOp_refreshMove hphase ‹_›

/-- Settles O47: the one turn that keeps its position is the hold of `SHIFT`. -/
theorem refreshHoldsOnlyOnShifter : Obligations.RefreshHoldsOnlyOnShifter := by
  intro s t h hready
  have hmove := (rfStep_refreshMove s).of_eq h
  cases hmove with
  | held hphase hbusy => simp [hready hphase] at hbusy
  | dark hmoved => exact hmoved
  | latching hmoved => exact hmoved
  | scanning hmoved => exact hmoved

theorem RefreshMove.latchDark {s t : State} (h : RefreshMove s t) (hs : LatchDark s) : LatchDark t := by
  cases h with
  | held => exact hs
  | dark _ hoff => exact fun _ => hoff
  | latching _ hphase hoe => exact fun _ => hoe.trans (hs hphase)
  | scanning _ hphase => exact fun h => absurd h hphase

theorem turnStep_keepsLatchDark {s : State} (turn : Turn) (hs : LatchDark s) :
    EndsIn LatchDark (turnStep turn s) := by
  cases turn with
  | rx =>
    refine (rxStep_keepsRefreshSide s).imp fun t ⟨_, ⟨_, _, hphase, _, hoe, _, _⟩, _⟩ => ?_
    rwa [LatchDark, hphase, hoe]
  | rf => exact (rfStep_refreshMove s).imp fun t ht => ht.latchDark hs
  | env m => cases m <;> exact hs

/-- Settles O48: `RX` and the environment touch neither the phase nor the output, and every move of `RF` keeps it. -/
theorem latchDarkKeptByEveryStep : Obligations.LatchDarkKeptByEveryStep := by
  intro s t hs hstep
  have hturn : LatchDark (nextTurn s).2 := by
    rw [nextTurn_snd_eq]
    exact hs
  exact (turnStep_keepsLatchDark _ hturn).of_eq (turnStep_of_step hstep)

end Sys2Proof.Machine
end

section
/-! PROOFS. One (bit, row) iteration of the scan driver (R160, R172): the blanking, the columns of a row shifted from the
last to the first, the latch and the hold, and the end of the iteration. -/

namespace Sys2Proof.Machine

/-! ## Turns one after another -/

theorem rfTurns_succ {s t : State} {i : Instr} (n : Nat) (hop : scanOp s = some i) (hexec : exec i s = .next t) :
    rfTurns (n + 1) s = rfTurns n t := by
  rw [rfTurns, rfStep_of_scanOp hop, hexec, andThen_next]

/-! ## Reading a buffer without competing candidates -/

/-- The set of a byte is not drawn from: its buffer is not shared, or the set is its byte (R71, R72). -/
theorem readValue_of_quiet {s : State} {b : Buf} (h : b ≠ sharedBuf s.cfg ∨ s.cand = []) (i : Nat) :
    readValue s b i = currentByte s b i := by
  by_cases hb : b = sharedBuf s.cfg
  · have hcand : s.cand = [] := h.resolve_left (not_not_intro hb)
    have hset : candOf s i = [memGet (bufOf s b) i] := by
      rw [hb]
      exact candOf_of_unlisted (by rw [hcand]; rfl)
    rw [readValue, if_pos hb, hset]
    rfl
  · rw [readValue, if_neg hb]

theorem afterRead_of_quiet {s : State} {b : Buf} (h : b ≠ sharedBuf s.cfg ∨ s.cand = []) (i : Nat) :
    afterRead s b i = s := by
  refine if_neg ?_
  rintro ⟨hb, hmany⟩
  have hcand : s.cand = [] := h.resolve_left (not_not_intro hb)
  rw [candOf_of_unlisted (by rw [hcand]; rfl)] at hmany
  simp at hmany

/-! ## The columns of a row -/

/-- `RF` can shift a whole row of the plane: the shifter is ready, the row and the bit are in range, and `BPS` has no
competing candidates. -/
structure ShiftsRow (s : State) : Prop where
  phase : s.sdPhase = .shift
  ready : s.shifterReady = true
  bit_lt : s.sdBit < depthBits
  row_lt : s.sdRow < rows s.cfg
  quiet : Buf.bps ≠ sharedBuf s.cfg ∨ s.cand = []

/-- The event of a shifted column: its plane byte, as it stands (R162). -/
def columnEvent (s : State) (x : Nat) : Event := .shift (currentByte s .bps (bpi s.cfg s.sdRow s.sdBit x))

/-- The events of the columns from `n` down to the first. -/
def columnEvents (s : State) (n : Nat) : List Event := (List.range (n + 1)).map fun j => columnEvent s (n - j)

theorem append_columnEvents_succ (es : List Event) (s : State) (n : Nat) :
    es ++ columnEvents s (n + 1) = es ++ [columnEvent s (n + 1)] ++ columnEvents s n := by
  rw [columnEvents, List.range_succ_eq_map]
  simp [columnEvents, Function.comp_def]

theorem ShiftsRow.exec_sdShift {s : State} (h : ShiftsRow s) (hcol : s.sdCol < s.cfg.width) :
    exec .sdShift s = .next { s with
      sdCol := s.sdCol - 1, sdPhase := if 0 < s.sdCol then .shift else .addr,
      trace := s.trace ++ [columnEvent s s.sdCol] } := by
  rw [exec_sdShift_of_ready h.ready h.bit_lt h.row_lt hcol, readValue_of_quiet h.quiet, afterRead_of_quiet h.quiet,
    nextColumn_eq, emit_sdPhase, h.phase]
  rfl

theorem ShiftsRow.atColumn {s : State} (h : ShiftsRow s) (x : Nat) (es : List Event) :
    ShiftsRow { s with sdCol := x, sdPhase := .shift, trace := es } :=
  ⟨rfl, h.ready, h.bit_lt, h.row_lt, h.quiet⟩

/-- From column `n` on, `n + 1` turns shift the columns down to the first and go to `ADDR` (R162). -/
theorem ShiftsRow.rfTurns_columns {s : State} {n : Nat} (m : Nat) (h : ShiftsRow s) (hcol : s.sdCol = n)
    (hn : n < s.cfg.width) :
    rfTurns (m + (n + 1)) s = rfTurns m { s with
      sdCol := 0, sdPhase := .addr, trace := s.trace ++ columnEvents s n } := by
  have hop : scanOp s = some .sdShift := by simp [scanOp, h.phase]
  induction n generalizing s with
  | zero =>
    have hexec := h.exec_sdShift (by omega)
    rw [hcol] at hexec
    exact rfTurns_succ m hop hexec
  | succ n ih =>
    have hexec := h.exec_sdShift (by omega)
    rw [hcol, if_pos n.succ_pos] at hexec
    refine (rfTurns_succ _ hop hexec).trans ((ih (h.atColumn n _) rfl (Nat.lt_of_succ_lt hn) rfl).trans ?_)
    rw [append_columnEvents_succ]
    rfl

/-! ## The latch and the hold -/

/-- The five turns after the last column (R163 to R167, R176). -/
theorem rfTurns_latch_and_hold {s : State} (h : s.sdPhase = .addr) (m : Nat) :
    rfTurns (m + 5) s = rfTurns m { s with
      addrValue := s.sdRow, latLevel := .deasserted, oeLevel := .enabled, sdPhase := .blankEnd,
      trace := s.trace ++ [.addr s.sdRow, .latAsserted s.cfg.tLatch, .latDeasserted, .oe .enabled,
        .hold (2 ^ s.sdBit * s.cfg.tUnit)] } := by
  have hop : scanOp s = some .sdAddr := by simp [scanOp, h]
  rw [rfTurns_succ _ hop rfl, rfTurns_succ _ rfl rfl, rfTurns_succ _ rfl rfl, rfTurns_succ _ rfl rfl,
    rfTurns_succ _ rfl rfl]
  simp [emit, holdLabel_eq]

theorem rfTurns_blankEnd {s : State} (h : s.sdPhase = .blankEnd) (m : Nat) :
    rfTurns (m + 1) s = rfTurns m (nextIteration (emit (.oe .disabled) { s with oeLevel := .disabled })) :=
  rfTurns_succ m (i := .sdBlankEnd) (by simp [scanOp, h]) rfl

/-! ## The iteration -/

theorem shiftsRow_blanked {s : State} (hready : s.shifterReady = true) (hbit : s.sdBit < depthBits)
    (hrow : s.sdRow < rows s.cfg) (hquiet : s.cfg.encPlace = .refresh ∨ s.cand = []) : ShiftsRow (blanked s) := by
  refine ⟨rfl, hready, hbit, hrow, ?_⟩
  rcases hquiet with hp | hcand
  · exact .inl (by simp [sharedBuf_of_refresh hp])
  · exact .inr (by simp [blanked, hcand])

/-- Settles O46: the turn of `BLANK`, those of the columns, the five of the latch and the hold, and `BLANK_END`. -/
theorem iterationTrace : Obligations.IterationTrace := by
  intro s hphase hready hbit hrow hwidth hquiet
  have hop : scanOp s = some .sdBlank := by simp [scanOp, hphase]
  have hlast : s.cfg.width - 1 < s.cfg.width := Nat.sub_one_lt_of_lt hwidth
  have hturns : s.cfg.width + 7 = 6 + (s.cfg.width - 1 + 1) + 1 := by omega
  rw [hturns, rfTurns_succ _ hop (exec_sdBlank s),
    (shiftsRow_blanked hready hbit hrow hquiet).rfTurns_columns (n := s.cfg.width - 1) 6 rfl hlast,
    rfTurns_latch_and_hold rfl 1, rfTurns_blankEnd rfl 0, nextIteration_eq]
  have hcolumns : columnEvents (blanked s) (s.cfg.width - 1) = (List.range s.cfg.width).map fun j =>
      .shift (currentByte s .bps (bpi s.cfg s.sdRow s.sdBit (s.cfg.width - 1 - j))) := by
    rw [columnEvents, Nat.sub_add_cancel hwidth]
    rfl
  refine ⟨_, rfl, rfl, rfl, ?_⟩
  simp [hcolumns]

end Sys2Proof.Machine
end

section
/-! PROOFS. The canonical COBS encoding of a frame (R217): its length, that it holds no terminator, and that the
reference decoder of a record gives the frame back, block by block as the encoder closes them. -/

namespace Sys2Proof.Machine

/-! ## An open block -/

/-- What the encoder keeps of its open block: it holds no zero, and it has room for a literal (R217). -/
structure OpenBlock (blk : List Byte) : Prop where
  no_zero : 0x00 ∉ blk
  room : blk.length + 1 < 255

theorem OpenBlock.nil : OpenBlock [] := ⟨List.not_mem_nil, by decide⟩

theorem OpenBlock.snoc {blk : List Byte} {d : Byte} (h : OpenBlock blk) (hd : d ≠ 0x00)
    (hfull : blk.length + 1 ≠ 254) : OpenBlock (blk ++ [d]) where
  no_zero := List.not_mem_append h.no_zero (by rwa [List.mem_singleton, eq_comm])
  room := by
    have hroom := h.room
    simp only [List.length_append, List.length_singleton]
    omega

/-- The code byte of an open block says its length. -/
theorem OpenBlock.toNat_code {blk : List Byte} (h : OpenBlock blk) :
    (BitVec.ofNat 8 (blk.length + 1)).toNat = blk.length + 1 := by
  have hroom := h.room
  rw [BitVec.toNat_ofNat, Nat.mod_eq_of_lt (by omega)]

theorem OpenBlock.code_ne_zero {blk : List Byte} (h : OpenBlock blk) : BitVec.ofNat 8 (blk.length + 1) ≠ 0x00 := by
  intro hcode
  simpa [hcode] using h.toNat_code

theorem OpenBlock.code_ne_max {blk : List Byte} (h : OpenBlock blk) : BitVec.ofNat 8 (blk.length + 1) ≠ 0xFF := by
  intro hcode
  have hlen := h.toNat_code
  have hroom := h.room
  rw [hcode] at hlen
  exact absurd hlen.symm (Nat.ne_of_lt hroom)

/-! ## Its length and its bytes -/

/-- A code byte for each block, and a block is closed by a zero, by 254 literals or by the end (R206, R217). -/
theorem length_cobsEncode_le {blk : List Byte} (frame : List Byte) (h : OpenBlock blk) :
    (cobsEncode blk frame).length ≤ blk.length + frame.length + (blk.length + frame.length) / 254 + 1 := by
  fun_induction cobsEncode blk frame with
  | case1 blk => simp
  | case2 blk rest ih | case3 blk d rest _ hfull ih =>
    have hrest := ih .nil
    simp only [List.length_cons, List.length_append, List.length_nil] at hrest ⊢
    omega
  | case4 blk d rest hd hfull ih =>
    have hrest := ih (h.snoc hd hfull)
    simp only [List.length_cons, List.length_append, List.length_nil] at hrest ⊢
    omega

theorem cobsEncode_ne_nil (blk frame : List Byte) : cobsEncode blk frame ≠ [] := by
  fun_induction cobsEncode blk frame with
  | case1 | case2 | case3 => simp
  | case4 blk d rest _ _ ih => exact ih

/-- No code byte and no literal is the terminator (R217). -/
theorem terminator_not_mem_cobsEncode {blk : List Byte} (frame : List Byte) (h : OpenBlock blk) :
    0x00 ∉ cobsEncode blk frame := by
  fun_induction cobsEncode blk frame with
  | case1 blk => exact List.not_mem_cons_of_ne_of_not_mem h.code_ne_zero.symm h.no_zero
  | case2 blk rest ih =>
    rw [List.mem_append, List.mem_cons, not_or, not_or]
    exact ⟨⟨h.code_ne_zero.symm, h.no_zero⟩, ih .nil⟩
  | case3 blk d rest hd _ ih =>
    rw [List.mem_append, List.mem_cons, List.mem_append, List.mem_singleton, not_or, not_or, not_or]
    exact ⟨⟨by decide, h.no_zero, Ne.symm hd⟩, ih .nil⟩
  | case4 blk d rest hd hfull ih => exact ih (h.snoc hd hfull)

/-! ## The round trip -/

/-- The reference decoder on a block whose literals are known (R99). -/
theorem cobsBlocksOf_of_literals {fuel : Nat} {c : Byte} {literals rest : List Byte} (hfuel : 0 < fuel)
    (hc : c.toNat = literals.length + 1) :
    cobsBlocksOf fuel (c :: literals ++ rest) =
      (literals ++ (if c ≠ 0xFF ∧ rest ≠ [] then [0x00] else []) ++ (cobsBlocksOf (fuel - 1) rest).1,
        (cobsBlocksOf (fuel - 1) rest).2) := by
  obtain ⟨fuel, rfl⟩ := Nat.exists_eq_add_one.mpr hfuel
  have hlen : c.toNat - 1 = literals.length := by omega
  have hzero : c ≠ 0x00 := by
    rintro rfl
    exact absurd hc (Nat.succ_ne_zero _).symm
  rw [List.cons_append, cobsBlocksOf_block hzero (by simp [hlen]), hlen, List.take_left, List.drop_left]
  simp [List.length_pos_iff]

/-- The reference decoder gives back the open block and the frame it was to be followed by (R217). -/
theorem cobsBlocksOf_cobsEncode {fuel : Nat} {blk : List Byte} (frame : List Byte) (h : OpenBlock blk)
    (hfuel : (cobsEncode blk frame).length ≤ fuel) :
    cobsBlocksOf fuel (cobsEncode blk frame) = (blk ++ frame, true) := by
  fun_induction cobsEncode blk frame generalizing fuel with
  | case1 blk =>
    rw [List.length_cons] at hfuel
    rw [← List.append_nil (_ :: _), cobsBlocksOf_of_literals (by omega) h.toNat_code]
    simp
  | case2 blk rest ih =>
    rw [List.length_append, List.length_cons] at hfuel
    rw [cobsBlocksOf_of_literals (by omega) h.toNat_code, ih .nil (by omega),
      if_pos ⟨h.code_ne_max, cobsEncode_ne_nil [] rest⟩]
    simp
  | case3 blk d rest _ hfull ih =>
    rw [List.length_append, List.length_cons] at hfuel
    rw [cobsBlocksOf_of_literals (by omega) (by simp [hfull]), ih .nil (by omega)]
    simp
  | case4 blk d rest hd hfull ih => rw [ih (h.snoc hd hfull) hfuel, List.append_assoc, List.singleton_append]

theorem cobsPayload_cobsEncode (frame : List Byte) : cobsPayload (cobsEncode [] frame) = frame := by
  rw [cobsPayload, cobsBlocksOf_cobsEncode frame .nil le_rfl, List.nil_append]

theorem cobsFramed_cobsEncode (frame : List Byte) : cobsFramed (cobsEncode [] frame) = true := by
  rw [cobsFramed, cobsBlocksOf_cobsEncode frame .nil le_rfl]

/-- Settles O17: `DEC.COBS` follows the reference decoder, which inverts the encoder. -/
theorem cobsRoundTrip : Obligations.CobsRoundTrip := by
  intro s frame hlen
  refine ⟨by simpa using length_cobsEncode_le frame .nil, terminator_not_mem_cobsEncode frame .nil,
    fun hrecord hcap => ?_⟩
  obtain ⟨t, hexec, -, -, -, -, hdecoded⟩ := cobsDecodeCompletesInBounds s hcap
  obtain ⟨hposition, hwritten, hok, -⟩ := hdecoded _ hrecord
  rw [cobsPayload_cobsEncode] at hposition hwritten hok
  refine ⟨t, hexec, hok.mpr ⟨cobsFramed_cobsEncode frame, hlen⟩, fun j hj => ?_⟩
  rw [hwritten j (by rw [hposition]; omega), List.getElem?_eq_getElem hj, List.getD_eq_getElem _ _ hj]

end Sys2Proof.Machine
end

section
/-! PROOFS. `DEC.TEXT` against the reference decoder of a record (R243): symbol by symbol, with the sextets of the open
group in the accumulator, and the final partial group output at the record's end (R255). -/

namespace Sys2Proof.Machine

/-! ## The open group -/

/-- A sequence of sextets read as one number, the first the most significant. -/
def sextetsValue (p : List Nat) : Nat := p.foldl (fun acc v => acc * 64 + v) 0

theorem sextetsValue_snoc (p : List Nat) (v : Nat) : sextetsValue (p ++ [v]) = sextetsValue p * 64 + v := by
  simp [sextetsValue]

/-- The sextets read since the last whole group, as the accumulator and its counter hold them (R242, R243). -/
structure OpenGroup (p : List Nat) (s : State) : Prop where
  short : p.length < 4
  small : ∀ v ∈ p, v < 64
  count : s.dec.k = p.length
  value : s.dec.acc.toNat = sextetsValue p

theorem OpenGroup.nil {s : State} (hk : s.dec.k = 0) (hacc : s.dec.acc = 0) : OpenGroup [] s :=
  ⟨by decide, nofun, hk, by rw [hacc]; rfl⟩

theorem sextetsValue_lt {p : List Nat} (h : ∀ v ∈ p, v < 64) : sextetsValue p < 64 ^ p.length := by
  induction p using List.reverseRecOn with
  | nil => exact Nat.one_pos
  | append_singleton p v ih =>
    have hp := ih fun w hw => h w (by simp [hw])
    have hv := h v (by simp)
    rw [sextetsValue_snoc, List.length_append, List.length_singleton, Nat.pow_succ]
    omega

theorem OpenGroup.acc_pushSextet {p : List Nat} {s : State} (h : OpenGroup p s) (v : BitVec 6) :
    (pushSextet v s).dec.acc.toNat = sextetsValue (p ++ [v.toNat]) := by
  have hvalue := sextetsValue_lt h.small
  have hbound : 64 ^ p.length ≤ 64 ^ 3 := Nat.pow_le_pow_right (by decide) (Nat.le_of_lt_succ h.short)
  have hv := v.isLt
  have hpush := toNat_acc_pushSextet hv s
  rw [BitVec.ofNat_toNat, BitVec.setWidth_eq, accAfter, h.value, Nat.mod_eq_of_lt (by omega)] at hpush
  rw [hpush, sextetsValue_snoc]

theorem OpenGroup.small_snoc {p : List Nat} {s : State} (h : OpenGroup p s) (v : BitVec 6) :
    ∀ w ∈ p ++ [v.toNat], w < 64 := fun w hw =>
  (List.mem_append.mp hw).elim (h.small w) fun hw => List.mem_singleton.mp hw ▸ v.isLt

/-- A sextet that does not complete its group waits in it. -/
theorem OpenGroup.pushSextet {p : List Nat} {s : State} (h : OpenGroup p s) (v : BitVec 6) (hshort : p.length < 3) :
    OpenGroup (p ++ [v.toNat]) (pushSextet v s) where
  short := by rw [List.length_append, List.length_singleton]; omega
  small := h.small_snoc v
  count := by simp [h.count]
  value := h.acc_pushSextet v

theorem OpenGroup.of_dec {p : List Nat} {s t : State} (h : OpenGroup p s) (hk : t.dec.k = s.dec.k)
    (hacc : t.dec.acc = s.dec.acc) : OpenGroup p t :=
  ⟨h.short, h.small, hk.trans h.count, hacc ▸ h.value⟩

/-! ## What a group outputs -/

theorem ofNat_byte_congr {m n : Nat} (h : m % 256 = n % 256) : BitVec.ofNat 8 m = BitVec.ofNat 8 n :=
  BitVec.eq_of_toNat_eq (by simpa using h)

/-- Four sextets are the three bytes of their group (R104). -/
theorem sextetBytes_of_group {p : List Nat} (hp : p.length = 4) (hsmall : ∀ v ∈ p, v < 64) (rest : List Nat) :
    sextetBytes (p ++ rest) = groupBytes (sextetsValue p) ++ sextetBytes rest := by
  obtain ⟨a, b, c, d, rfl⟩ := List.length_eq_four.mp hp
  obtain ⟨hb, hc, hd⟩ : b < 64 ∧ c < 64 ∧ d < 64 := ⟨hsmall b (by simp), hsmall c (by simp), hsmall d (by simp)⟩
  have hvalue : sextetsValue [a, b, c, d] = a * 262144 + b * 4096 + c * 64 + d := by
    simp only [sextetsValue, List.foldl_cons, List.foldl_nil]
    omega
  have hfirst := ofNat_byte_congr (m := a * 4 + b / 16) (n := sextetsValue [a, b, c, d] / 2 ^ 16) (by omega)
  have hsecond := ofNat_byte_congr (m := b % 16 * 16 + c / 4) (n := sextetsValue [a, b, c, d] / 2 ^ 8) (by omega)
  have hthird := ofNat_byte_congr (m := c % 4 * 64 + d) (n := sextetsValue [a, b, c, d]) (by omega)
  simp only [List.cons_append, List.nil_append, sextetBytes, groupBytes, hfirst, hsecond, hthird]

theorem unlessFailed_next_self (r : Result) : unlessFailed r .next = r := by
  cases r with
  | next s => rw [unlessFailed_next, ite_self]
  | fault | refused => rfl

theorem unlessFailed_assoc (r : Result) (k k' : State → Result) :
    unlessFailed (unlessFailed r k) k' = unlessFailed r fun t => unlessFailed (k t) k' := by
  cases r with
  | next s => cases h : decFailed s <;> simp [h]
  | fault | refused => rfl

/-- The final partial group outputs what its sextets give, its left-over bits dropped (R243, R255). -/
theorem flushGroup_eq {p : List Nat} {s : State} (h : OpenGroup p s) :
    flushGroup s = outBytes (sextetBytes p) .next s := by
  have byte : ∀ k, s.dec.acc.extractLsb' k 8 = BitVec.ofNat 8 (sextetsValue p / 2 ^ k) := fun k => by
    rw [BitVec.extractLsb', Nat.shiftRight_eq_div_pow, h.value]
  have hshort := h.short
  have hsmall := h.small
  rw [flushGroup, h.count]
  match p with
  | [] | [_] => rfl
  | [a, b] =>
    have hb := hsmall b (by simp)
    have hfirst : sextetsValue [a, b] / 2 ^ 4 = a * 4 + b / 16 := by
      simp only [sextetsValue, List.foldl_cons, List.foldl_nil]
      omega
    rw [byte 4, hfirst]
    exact (unlessFailed_next_self _).symm
  | [a, b, c] =>
    obtain ⟨hb, hc⟩ : b < 64 ∧ c < 64 := ⟨hsmall b (by simp), hsmall c (by simp)⟩
    have hvalue : sextetsValue [a, b, c] = a * 4096 + b * 64 + c := by
      simp only [sextetsValue, List.foldl_cons, List.foldl_nil]
      omega
    have hfirst : sextetsValue [a, b, c] / 2 ^ 10 = a * 4 + b / 16 := by omega
    have hsecond := ofNat_byte_congr (m := sextetsValue [a, b, c] / 2 ^ 2) (n := b % 16 * 16 + c / 4) (by omega)
    rw [byte 10, hfirst]
    refine unlessFailed_outByte_congr fun t ht => ?_
    rw [ht, byte 2, hsecond]
    exact (unlessFailed_next_self _).symm

/-! ## The symbols of a record -/

/-- The sextets of the stored bytes, pads and invalid symbols skipped (R243, R253, R254). -/
def sextets (record : List Byte) : List Nat := record.filterMap fun d => (b64Val d).map BitVec.toNat

theorem sextets_cons (d : Byte) (rest : List Byte) : sextets (d :: rest) = sextets [d] ++ sextets rest :=
  List.filterMap_append (l := [d]) (l' := rest)

theorem sextets_singleton (d : Byte) : sextets [d] = ((b64Val d).map BitVec.toNat).toList := by
  cases h : b64Val d <;> simp [sextets, h]

/-- A stored byte adds its sextet if it has one, and is skipped otherwise (R241, R243). -/
theorem runSym_eq_b64Val (d : Byte) (s : State) :
    runSym d s = (b64Val d).elim (.next s) fun v => acceptSextet v s := by
  unfold runSym b64Val
  iterate 5
    split
    · rfl
  split <;> rfl

/-- Bytes that are output, or overflow the frame, in a record that has not failed. -/
theorem outBytes_cases {bytes : List Byte} {s : State} (k : State → Result) (hfailed : decFailed s = false)
    (ho : s.dec.o ≤ frameBytes s.cfg) :
    (∃ t, outBytes bytes k s = k t ∧ s.dec.o + bytes.length ≤ frameBytes s.cfg ∧ Outputs bytes s t ∧
      t.dec = { s.dec with o := s.dec.o + bytes.length }) ∨
    ∃ u, outBytes bytes k s = .next (raiseFail .overflow u) ∧ frameBytes s.cfg < s.dec.o + bytes.length ∧
      Outputs (bytes.take (frameBytes s.cfg - s.dec.o)) s u := by
  rcases Nat.lt_or_ge (frameBytes s.cfg) (s.dec.o + bytes.length) with hlong | hfits
  · obtain ⟨u, hout, houtputs, -⟩ := outBytes_of_overflow k hfailed ho hlong
    exact .inr ⟨u, hout, hlong, houtputs⟩
  · obtain ⟨t, hout, houtputs, hdec⟩ := outBytes_of_fits k hfailed hfits
    exact .inl ⟨t, hout, hfits, houtputs, hdec⟩

theorem Outputs.move_locals {bytes : List Byte} {s t : State} {l : DecLocals} (h : Outputs bytes s t)
    (hl : l.o = t.dec.o) : Outputs bytes s { t with dec := l } :=
  ⟨by rw [h.others], hl.trans h.position, h.written, h.elsewhere⟩

theorem blockLiterals_congr {s t : State} (n : Nat) (hi : t.dec.i = s.dec.i) (hrxb : t.rxb = s.rxb) :
    blockLiterals t n = blockLiterals s n :=
  (drop_blockLiterals (n := n) (k := 0) hi hrxb).symm

theorem acceptSextet_of_short {p : List Nat} {s : State} (h : OpenGroup p s) (v : BitVec 6) (hshort : p.length < 3) :
    acceptSextet v s = .next (pushSextet v s) := by
  have hk : (pushSextet v s).dec.k ≠ 4 := by
    have hcount := h.count
    simp only [pushSextet_dec]
    omega
  rw [acceptSextet, if_neg hk]

/-- The fourth sextet outputs its group, which is then cleared (R243). -/
theorem acceptSextet_fourth {p : List Nat} {s : State} (h : OpenGroup p s) (v : BitVec 6) (hfull : p.length = 3) :
    acceptSextet v s =
      outBytes (groupBytes (sextetsValue (p ++ [v.toNat]))) (fun t => .next (clearGroup t)) (pushSextet v s) := by
  have hk : (pushSextet v s).dec.k = 4 := by rw [pushSextet_dec, h.count, hfull]
  rw [acceptSextet, if_pos hk, outGroup_eq, h.acc_pushSextet]

/-- What a stored byte that adds the sextets `vs` does to an open group: the bytes it completes are output and a group
stays open, or they find the end of `FB` (R207, R243). -/
inductive SymbolRead (p vs : List Nat) (s : State) : State → Prop
  | read {bytes : List Byte} {q : List Nat} {t : State} :
      (∀ rest, sextetBytes (p ++ (vs ++ rest)) = bytes ++ sextetBytes (q ++ rest)) →
      s.dec.o + bytes.length ≤ frameBytes s.cfg → Outputs bytes s t → OpenGroup q t →
      t.dec.i = s.dec.i → t.dec.status = s.dec.status → SymbolRead p vs s t
  | overflowed {bytes : List Byte} {u : State} :
      (∀ rest, sextetBytes (p ++ (vs ++ rest)) = bytes ++ sextetBytes rest) →
      frameBytes s.cfg < s.dec.o + bytes.length → Outputs (bytes.take (frameBytes s.cfg - s.dec.o)) s u →
      SymbolRead p vs s (raiseFail .overflow u)

section
variable {p : List Nat} {s : State} (hp : OpenGroup p s) (ho : s.dec.o ≤ frameBytes s.cfg)
  (hfailed : decFailed s = false)
include hp ho hfailed

theorem acceptSextet_read (v : BitVec 6) : ∃ t, acceptSextet v s = .next t ∧ SymbolRead p [v.toNat] s t := by
  rcases Nat.lt_or_eq_of_le (Nat.le_of_lt_succ hp.short) with hshort | hfull
  · rw [acceptSextet_of_short hp v hshort]
    exact ⟨_, rfl, .read (bytes := []) (fun rest => by rw [List.nil_append, List.append_assoc]) ho
      ((Outputs.nil s).move_locals rfl) (hp.pushSextet v hshort) rfl rfl⟩
  · have hbytes : ∀ rest, sextetBytes (p ++ ([v.toNat] ++ rest)) =
        groupBytes (sextetsValue (p ++ [v.toNat])) ++ sextetBytes rest := fun rest => by
      rw [← List.append_assoc, sextetBytes_of_group (by rw [List.length_append, hfull]; rfl) (hp.small_snoc v)]
    rw [acceptSextet_fourth hp v hfull]
    rcases outBytes_cases (fun t => .next (clearGroup t)) (s := pushSextet v s) hfailed ho with
      ⟨t, hout, hfits, houtputs, hdec⟩ | ⟨u, hout, hlong, houtputs⟩
    · refine ⟨_, hout, .read (q := []) hbytes hfits ((houtputs.of_locals rfl rfl).move_locals rfl) (.nil rfl rfl)
        ?_ ?_⟩
      all_goals
        rw [clearGroup_dec, hdec]
        rfl
    · exact ⟨_, hout, .overflowed hbytes hlong (houtputs.of_locals rfl rfl)⟩

theorem runSym_read (d : Byte) : ∃ t, runSym d s = .next t ∧ SymbolRead p (sextets [d]) s t := by
  rw [runSym_eq_b64Val, sextets_singleton]
  cases b64Val d with
  | none => exact ⟨s, rfl, .read (bytes := []) (q := p) (fun _ => rfl) ho (.nil s) hp rfl rfl⟩
  | some v => exact acceptSextet_read hp ho hfailed v

theorem flushGroup_decoded : ∃ t, flushGroup s = .next t ∧ Decoded (sextetBytes p) true s t := by
  rw [flushGroup_eq hp]
  rcases outBytes_cases .next hfailed ho with ⟨t, hout, hfits, houtputs, hdec⟩ | ⟨u, hout, hlong, houtputs⟩
  · exact ⟨t, hout, .written rfl hfits houtputs (by rw [hdec])⟩
  · exact ⟨_, hout, .overflowed hlong houtputs⟩

end

theorem textSymbols_flushGroup_succ {m : Nat} {s : State} (h : s.dec.i < s.cfg.rxcap) :
    unlessFailed (textSymbols (m + 1) s) flushGroup = unlessFailed (runSym (currentByte s .rxb s.dec.i) s)
      fun t => unlessFailed (textSymbols m (advanceIn t)) flushGroup := by
  rw [textSymbols, readThen_rxb_of_lt h, unlessFailed_assoc]

theorem blockLiterals_succ (s : State) (m : Nat) :
    blockLiterals s (m + 1) = currentByte s .rxb s.dec.i :: blockLiterals (advanceIn s) m := by
  rw [blockLiterals, List.range'_succ]
  rfl

/-- The next `m` stored bytes and the end of the record, from an open group, output what the group's sextets and theirs
give (R243, R255). -/
theorem textSymbols_decoded {m : Nat} {p : List Nat} {s : State} (hp : OpenGroup p s)
    (hm : s.dec.i + m ≤ s.cfg.rxcap) (ho : s.dec.o ≤ frameBytes s.cfg) (hfailed : decFailed s = false) :
    ∃ t, unlessFailed (textSymbols m s) flushGroup = .next t ∧
      Decoded (sextetBytes (p ++ sextets (blockLiterals s m))) true s t := by
  induction m generalizing p s with
  | zero =>
    have hnone : p ++ sextets (blockLiterals s 0) = p := List.append_nil p
    rw [textSymbols, unlessFailed_next, hfailed, if_neg Bool.false_ne_true, hnone]
    exact flushGroup_decoded hp ho hfailed
  | succ m ih =>
    rw [textSymbols_flushGroup_succ (by omega), blockLiterals_succ, sextets_cons]
    generalize currentByte s .rxb s.dec.i = d
    obtain ⟨t, hsym, hread⟩ := runSym_read hp ho hfailed d
    rw [hsym]
    cases hread with
    | read hbytes hfits houtputs hq hi hstatus =>
      have hcfg := houtputs.cfg
      have hgoes : decFailed t = false := (decFailed_of_status hstatus).trans hfailed
      have hrest : blockLiterals (advanceIn t) m = blockLiterals (advanceIn s) m :=
        blockLiterals_congr m (congrArg (· + 1) hi) (by rw [advanceIn_rxb, houtputs.others]; rfl)
      obtain ⟨u, hu, hdecoded⟩ := ih (s := advanceIn t) (hq.of_dec rfl rfl)
        (by simp only [advanceIn_dec, advanceIn_cfg, hi, hcfg]; omega)
        (by simpa only [advanceIn_dec, advanceIn_cfg, houtputs.position, hcfg] using hfits) hgoes
      rw [unlessFailed_next, hgoes, if_neg Bool.false_ne_true, hbytes, ← hrest]
      exact ⟨u, hu, hdecoded.prepend hfits (houtputs.move_locals rfl) hstatus⟩
    | overflowed hbytes hlong houtputs =>
      rw [unlessFailed_next, decFailed_raiseFail, if_pos rfl, hbytes]
      exact ⟨_, rfl, decoded_of_overflow ho hlong houtputs⟩

/-! ## The end of a record -/

/-- The exact-length check after a decode that has met no malformed block. -/
theorem Decoded.ended_finishDecode {payload : List Byte} {s v : State} (h : Decoded payload true (startDecode s) v) :
    ∃ t u, unlessFailed (.next v) (fun t => .next (finishDecode t)) = .next u ∧
      Outputs (payload.take (frameBytes s.cfg)) (startDecode s) t ∧ Ended payload true (frameBytes s.cfg) t u := by
  have room : (startDecode s).dec.o + payload.length = payload.length := Nat.zero_add _
  cases h with
  | written _ hroom houtputs hstatus =>
    have hgoes : decFailed v = false := decFailed_of_status hstatus
    have hcfg : v.cfg = s.cfg := houtputs.cfg
    rw [room, startDecode_cfg] at hroom
    rw [unlessFailed_next, hgoes, if_neg Bool.false_ne_true, List.take_of_length_le hroom, ← hcfg]
    exact ⟨v, _, rfl, houtputs, Machine.ended_finishDecode (houtputs.position.trans room) (by rwa [hcfg])⟩
  | malformed hframed => cases hframed
  | overflowed hlong houtputs =>
    rw [room, startDecode_cfg] at hlong
    rw [unlessFailed_next, decFailed_raiseFail, if_pos rfl]
    exact ⟨_, _, rfl, houtputs, .overflow hlong⟩

/-- `DEC.TEXT` outputs the payload of its record as far as it fits, and ends as the payload says. -/
theorem execDecText_ended {s : State} (h : s.rxLen ≤ s.cfg.rxcap) :
    ∃ t u, execDecText s = .next u ∧
      Outputs ((textPayload (restOfRecord (startDecode s))).take (frameBytes s.cfg)) (startDecode s) t ∧
      Ended (textPayload (restOfRecord (startDecode s))) true (frameBytes s.cfg) t u := by
  obtain ⟨v, hsymbols, hdecoded⟩ := textSymbols_decoded (m := s.rxLen) (p := []) (s := startDecode s) (.nil rfl rfl)
    (by simpa using h) (Nat.zero_le _) rfl
  obtain ⟨t, u, hfinish, hended⟩ := hdecoded.ended_finishDecode
  refine ⟨t, u, ?_, hended⟩
  rw [execDecText, ← unlessFailed_assoc, hsymbols, hfinish]

/-- Without a malformed block a record fails with `OVERFLOW` or `LENGTH` only. -/
theorem Ended.success_or_failure_of_framed {payload : List Byte} {size : Nat} {t u : State}
    (h : Ended payload true size t u) :
    (u.dec.status = .ok ∧ payload.length = size ∧ u.trace = t.trace) ∨
      ∃ k, (k = .overflow ∨ k = .length) ∧ u.dec.status = .failed k ∧ u.trace = t.trace ++ [.fail k] := by
  cases h with
  | ok _ hlen => exact .inl ⟨rfl, hlen, rfl⟩
  | length => exact .inr ⟨.length, .inr rfl, rfl, rfl⟩
  | framing hframed => cases hframed
  | overflow => exact .inr ⟨.overflow, .inl rfl, rfl, rfl⟩

/-- Settles O20: the record is what the receive buffer holds, and its decode ends in one of three ways. -/
theorem textDecodeCompletesInBounds : Obligations.TextDecodeCompletesInBounds := by
  intro s h
  obtain ⟨t, u, hexec, houtputs, hended⟩ := execDecText_ended h
  obtain ⟨hposition, hwritten, helsewhere⟩ := houtputs.from_start
  obtain ⟨hfb, ho⟩ := hended.same
  have htrace : t.trace = s.trace := houtputs.trace
  rw [← hposition, ← ho] at hwritten helsewhere
  rw [List.length_take, Nat.min_comm, ← ho] at hposition
  rw [← hfb] at hwritten helsewhere
  refine ⟨u, hexec, (execDecText_sameButDecode s).of_eq hexec, ?_, hposition.trans_le (Nat.min_le_right ..), helsewhere,
    fun record hrecord => ?_⟩
  · rw [← htrace]
    refine hended.success_or_failure_of_framed.imp_left fun ⟨hok, hlen, hsame⟩ => ⟨hok, ?_, hsame⟩
    rw [hposition, hlen, Nat.min_self]
  · rw [restOfRecord_startDecode hrecord] at hposition hwritten hended
    obtain ⟨hok, hlength, -, hoverflow⟩ := hended.status_iff
    refine ⟨hposition, fun j hj => ?_, by simpa using hok, by simpa using hlength, hoverflow⟩
    rw [hwritten j hj, List.getElem?_take_of_lt (by omega)]

end Sys2Proof.Machine
end

section
/-! PROOFS. The receive context's turn (R200): it holds without a byte, stores a byte of a record or overflows (R203 to
R205, R246, R247), and ends a COBS record with what its decode reports (R201). -/

namespace Sys2Proof.Machine

/-! ## A hold -/

/-- Settles O7: with nothing on the link only the turn is used up. -/
theorem receiverHoldsWithoutByte : Obligations.ReceiverHoldsWithoutByte := by
  intro s rest hc hsched hphase hlink
  rw [step_of_configOk hc, nextTurn_of_sched hsched]
  simp only [turnStep, rxStep, hphase, hlink]

/-! ## A byte of a record -/

theorem storeRecord_stores (d : Byte) {s : State} (h : s.rxLen < s.cfg.rxcap) :
    ∃ t, storeRecord d s = .next t ∧ t = { s with rxb := t.rxb, rxLen := s.rxLen + 1 } ∧
      ∀ a, memGet t.rxb a = if a = s.rxLen then some d else memGet s.rxb a :=
  ⟨_, storeRecord_of_lt h, rfl, memGet_memSet s.rxb s.rxLen d⟩

theorem resetOverflow_cobs {s : State} (h : s.cfg.framing = .cobs) :
    resetOverflow s = { s with rxLen := 0, trace := s.trace ++ [.fail .overflow] } := by
  simp only [resetOverflow, h]
  rfl

/-- In text mode an overflow is acknowledged with `E` (R204). -/
theorem resetOverflow_text {s : State} (h : s.cfg.framing = .text) :
    resetOverflow s = { s with rxLen := 0, trace := s.trace ++ [.fail .overflow, .linkOut ackErrByte] } := by
  simp only [resetOverflow, h, acknowledge, emit, List.append_assoc, List.singleton_append]

theorem exec_cobsData_of_room (d : Byte) {s : State} (h : s.rxLen < s.cfg.rxcap) :
    exec (.cobsData d) s = storeRecord d s := if_pos h

theorem exec_cobsData_of_full (d : Byte) {s : State} (h : s.rxLen = s.cfg.rxcap) :
    exec (.cobsData d) s = .next (resetOverflow s) := if_neg h.not_lt

/-- Either framing stores or overflows in the same way; only the overflow looks at the framing (R204, R246, R247). -/
theorem exec_textData_eq (d : Byte) (s : State) : exec (.textData d) s = exec (.cobsData d) s := rfl

/-- Settles O11: a byte is stored at the cursor while there is room, and overflows silently when there is none. -/
theorem cobsDataStoresOrOverflows : Obligations.CobsDataStoresOrOverflows := by
  refine fun s d => ⟨fun hroom => ?_, fun hfull hf => ?_⟩
  · rw [exec_cobsData_of_room d hroom]
    exact storeRecord_stores d hroom
  · rw [exec_cobsData_of_full d hfull, resetOverflow_cobs hf]

/-- Settles O18: the same in text mode, where an overflow is acknowledged. -/
theorem textDataStoresOrOverflows : Obligations.TextDataStoresOrOverflows := by
  intro s d
  rw [exec_textData_eq]
  refine ⟨(cobsDataStoresOrOverflows s d).1, fun hfull hf => ?_⟩
  rw [exec_cobsData_of_full d hfull, resetOverflow_text hf]
  rfl

/-! ## A malformed block -/

/-- Settles O14: the check of a block's length comes before its first literal. -/
theorem zeroCodeAndTruncatedBlockFailFraming : Obligations.ZeroCodeAndTruncatedBlockFailFraming := by
  rintro s failed c rfl
  exact ⟨rfl, fun hlong => if_pos hlong, fun hlong => if_pos hlong⟩

/-! ## The end of a record -/

/-- What a record decode reports: success and no event, or one failure that is not `ACCOUNTING` (R208, R306). Beside
the report it leaves `FB`, the sets and its own locals (R210, R243). -/
structure DecodeReport (s t : State) : Prop where
  others : t = { s with fb := t.fb, cand := t.cand, dec := t.dec, trace := t.trace }
  result : (t.dec.status = .ok ∧ t.trace = s.trace) ∨
    ∃ k, k ≠ .accounting ∧ t.dec.status = .failed k ∧ t.trace = s.trace ++ [.fail k]

theorem execDecCobs_reports {s : State} (h : s.rxLen ≤ s.cfg.rxcap) : Answers (DecodeReport s) (execDecCobs s) := by
  obtain ⟨t, hexec, ⟨hothers, -⟩, hresult, -⟩ := cobsDecodeCompletesInBounds s h
  exact ⟨t, hexec, hothers, hresult.imp_left fun ⟨hok, _, htrace⟩ => ⟨hok, htrace⟩⟩

theorem execDecText_reports {s : State} (h : s.rxLen ≤ s.cfg.rxcap) : Answers (DecodeReport s) (execDecText s) := by
  obtain ⟨t, hexec, ⟨hothers, -⟩, hresult, -⟩ := textDecodeCompletesInBounds s h
  refine ⟨t, hexec, hothers, ?_⟩
  rcases hresult with ⟨hok, -, htrace⟩ | ⟨k, rfl | rfl, hfailed⟩
  · exact .inl ⟨hok, htrace⟩
  · exact .inr ⟨.overflow, nofun, hfailed⟩
  · exact .inr ⟨.length, nofun, hfailed⟩

theorem exec_cobsTerm_of_decode {s d : State} (h : execDecCobs s = .next d) :
    exec .cobsTerm s = .next (afterCobs d) := by
  change andThen (execDecCobs s) (fun t => .next (afterCobs t)) = _
  rw [h, andThen_next]

/-- A failed record is emptied, and no more (R201, R202, R211). -/
theorem afterCobs_of_failed {d : State} (h : d.dec.status ≠ .ok) :
    afterCobs d = { d with dec := DecLocals.idle, rxLen := 0 } := if_neg h

/-- A decoded frame is published before the handoff that may take it (R201, R284). -/
theorem afterCobs_of_ok {d : State} (h : d.dec.status = .ok) : afterCobs d = postPublish
    { d with dec := DecLocals.idle, rxLen := 0, hfNew := true, trace := d.trace ++ [.publish] } := if_pos h

/-- Settles O13, by what the decode reports and the placement of the encoder. -/
theorem cobsTerminatorPublishesOnSuccess : Obligations.CobsTerminatorPublishesOnSuccess := by
  intro s h
  obtain ⟨d, hdec, hreport⟩ := execDecCobs_reports h
  have hcfg : d.cfg = s.cfg := by rw [hreport.others]
  refine ⟨d, hdec, fun hfailed => ?_, fun hok hp => ?_, fun hok hp => ?_⟩ <;> rw [exec_cobsTerm_of_decode hdec]
  · rw [afterCobs_of_failed hfailed]
  · rw [afterCobs_of_ok hok, postPublish_refresh (by rwa [hcfg])]
  · rw [afterCobs_of_ok hok, postPublish_receive (by rwa [hcfg]) rfl]

end Sys2Proof.Machine
end

section
/-! PROOFS. The failures a step records (R300, R306): a turn of `RF` and an encode pass record none, a turn of `RX` at
most one, and after it the decoder is idle (R209, R301, R305). -/

namespace Sys2Proof.Machine

/-! ## Failure labels -/

/-- The kind of a failure label. -/
def failureOf : Event → Option FailKind
  | .fail k => some k
  | _ => none

theorem failureOf_eq_some {e : Event} {k : FailKind} : failureOf e = some k ↔ e = .fail k := by
  cases e <;> simp [failureOf]

/-- The failures that a list of events records. -/
def failuresOf (es : List Event) : List FailKind := es.filterMap failureOf

theorem mem_failuresOf {es : List Event} {k : FailKind} : k ∈ failuresOf es ↔ .fail k ∈ es := by
  simp [failuresOf, failureOf_eq_some]

theorem length_filter_fails (es : List Event) :
    (es.filter fun e => decide (∃ k ∈ [FailKind.framing, .length, .overflow, .accounting], e = .fail k)).length =
      (failuresOf es).length := by
  rw [failuresOf, List.length_filterMap_eq_countP, ← List.countP_eq_length_filter]
  refine List.countP_congr fun e _ => ?_
  rw [decide_eq_true_iff, Option.isSome_iff_exists]
  refine exists_congr fun k => ?_
  cases k <;> simp [failureOf_eq_some]

/-- From `s` to `t` the trace has grown, by events that record the failures `kinds`. -/
def Records (kinds : List FailKind) (s t : State) : Prop := ∃ es, t.trace = s.trace ++ es ∧ failuresOf es = kinds

theorem Records.refl (s : State) : Records [] s s := ⟨[], (List.append_nil _).symm, rfl⟩

theorem Records.of_trace {kinds : List FailKind} {s t u : State} (h : Records kinds s t) (hu : u.trace = t.trace) :
    Records kinds s u := by
  rwa [Records, hu]

theorem Records.trans {kinds kinds' : List FailKind} {s t u : State} (h : Records kinds s t)
    (h' : Records kinds' t u) : Records (kinds ++ kinds') s u := by
  obtain ⟨es, htrace, rfl⟩ := h
  obtain ⟨es', htrace', rfl⟩ := h'
  exact ⟨es ++ es', by rw [htrace', htrace, List.append_assoc], List.filterMap_append⟩

theorem Records.emit {kinds : List FailKind} {s t : State} (h : Records kinds s t) {e : Event}
    (he : failureOf e = none) : Records kinds s (emit e t) := by
  have hlast : Records [] t (Machine.emit e t) := ⟨[e], rfl, by simp [failuresOf, he]⟩
  simpa using h.trans hlast

/-! ## A turn of `RF`, and the encoder -/

theorem recordsNone_passClosed (s : State) : PassClosed (Records [] s) :=
  ⟨fun _ _ h => h, fun _ _ _ h _ _ => h⟩

theorem encoderOp_recordsNone (s : State) : EndsIn (Records [] s) (runOp (encoderOp s) s) := by
  refine endsIn_encoderOp ((recordsNone_passClosed s).execEncPair (.refl s) fun t ht => ht.of_trace (by simp)) ?_
  unfold execEncEnd
  split <;> exact Records.refl s

theorem execSdShift_recordsNone (s : State) : EndsIn (Records [] s) (execSdShift s) := by
  unfold execSdShift
  split
  · refine endsIn_readThen fun v => ?_
    rw [afterRead_eq]
    unfold nextColumn
    split <;> exact (Records.refl s).emit (e := .shift v) rfl
  · exact Records.refl s

theorem execSdTake_recordsNone (s : State) : EndsIn (Records [] s) (execSdTake s) := by
  unfold execSdTake
  split
  · exact (Records.refl s).of_trace (startPass_trace _)
  · exact Records.refl s

theorem rfStep_recordsNone (s : State) : EndsIn (Records [] s) (rfStep s) := by
  have scan {t : State} {e : Event} (htrace : t.trace = s.trace ++ [e]) (he : failureOf e = none) : Records [] s t :=
    ((Records.refl s).emit he).of_trace htrace
  unfold rfStep scanOp
  split
  case h_1 =>
    rw [runOp, exec_sdBlank]
    exact scan rfl rfl
  case h_2 => exact execSdShift_recordsNone s
  case h_8 => exact scan (nextIteration_trace _) rfl
  case h_9 =>
    split
    · exact endsIn_fault
    · exact execSdTake_recordsNone s
  case h_10 =>
    split
    · exact endsIn_fault
    · exact encoderOp_recordsNone s
  all_goals exact scan rfl rfl

/-! ## A turn of `RX` -/

/-- A raw payload is never active with `FRAMING = COBS` (R34). -/
theorem Inv.raw_inactive_of_cobs {s : State} (h : Inv s) (hf : s.cfg.framing = .cobs) : s.rawRemaining = 0 := by
  by_contra hraw
  obtain ⟨-, -, htext⟩ := h.raw_active (Nat.pos_of_ne_zero hraw)
  cases hf.symm.trans htext

/-- One failure was recorded, and the decoder is idle with the handoff flag as it was (R209, R305). -/
structure FailedIdle (k : FailKind) (s t : State) : Prop where
  kind : k ≠ .accounting
  records : Records [k] s t
  record_empty : t.rxLen = 0
  raw_remaining : t.rawRemaining = 0
  raw_offset : t.rawOffset = 0
  handoff : t.hfNew = s.hfNew
  phase : t.rxPhase = .accept
  pass : t.encActive = s.encActive

theorem FailedIdle.acknowledge {k : FailKind} {s t : State} (h : FailedIdle k s t) (d : Byte) :
    FailedIdle k s (acknowledge d t) :=
  { h with records := h.records.emit rfl }

/-- No failure, or one that leaves the decoder idle. -/
abbrev FailsIdle (s t : State) : Prop := Records [] s t ∨ ∃ k, FailedIdle k s t

/-- The event of the byte consumed comes before those of its operation (R200). -/
theorem FailsIdle.of_consumeLink {d : Byte} {rest : List Byte} {s t : State}
    (h : FailsIdle (consumeLink d rest s) t) : FailsIdle s t := by
  have hconsumed : Records [] s (consumeLink d rest s) := (Records.refl s).emit (e := .linkIn d) rfl
  rcases h with h | ⟨k, h⟩
  · exact .inl (hconsumed.trans h)
  · exact .inr ⟨k, { h with records := hconsumed.trans h.records }⟩

theorem DecodeReport.recordsNone {s t : State} (h : DecodeReport s t) (hok : t.dec.status = .ok) : Records [] s t := by
  rcases h.result with ⟨-, htrace⟩ | ⟨k, -, hfailed, -⟩
  · exact (Records.refl s).of_trace htrace
  · cases hok.symm.trans hfailed

section
variable {s : State} (h : Inv s) (hphase : s.rxPhase = .accept) (hraw : s.rawRemaining = 0)
include h hphase hraw

/-- A failure of a record that is then emptied leaves the decoder idle, since no raw payload was active (R209). -/
theorem failedIdle_of_emptied {k : FailKind} {t : State} (hk : k ≠ .accounting)
    (ht : t = { s with fb := t.fb, cand := t.cand, dec := t.dec, trace := s.trace ++ [.fail k], rxLen := 0 }) :
    FailedIdle k s t where
  kind := hk
  records := ⟨[.fail k], by rw [ht], rfl⟩
  record_empty := by rw [ht]
  raw_remaining := by rw [ht, hraw]
  raw_offset := by rw [ht, h.raw_idle hraw]
  handoff := by rw [ht]
  phase := by rw [ht, hphase]
  pass := by rw [ht]

/-- The record of a failed decode is emptied (R211). -/
theorem DecodeReport.failedIdle {t : State} (ht : DecodeReport s t) (hfailed : t.dec.status ≠ .ok) :
    ∃ k, FailedIdle k s (resetAccum (endDecode t)) := by
  obtain ⟨hothers, hresult⟩ := ht
  obtain ⟨k, hk, -, htrace⟩ := hresult.resolve_left fun hok => hfailed hok.1
  refine ⟨k, failedIdle_of_emptied h hphase hraw hk ?_⟩
  rw [← htrace, hothers]
  rfl

theorem execCobsTerm_failsIdle : EndsIn (FailsIdle s) (execCobsTerm s) := by
  obtain ⟨t, hexec, ht⟩ := execDecCobs_reports h.rx_len_le
  rw [execCobsTerm, hexec, andThen_next, afterCobs]
  split
  next hok => exact .inl (((ht.recordsNone hok).emit (e := .publish) rfl).of_trace (postPublish_trace _))
  next hfailed => exact .inr (ht.failedIdle h hphase hraw hfailed)

theorem execTextLf_failsIdle : EndsIn (FailsIdle s) (execTextLf s) := by
  obtain ⟨t, hexec, ht⟩ := execDecText_reports h.rx_len_le
  rw [execTextLf, hexec, andThen_next, afterText]
  split
  next hok =>
    exact .inl ((((ht.recordsNone hok).emit (e := .publish) rfl).emit (e := .linkOut ackOkByte) rfl).of_trace
      (postPublish_trace _))
  next hfailed =>
    obtain ⟨k, hidle⟩ := ht.failedIdle h hphase hraw hfailed
    exact .inr ⟨k, hidle.acknowledge ackErrByte⟩

/-- A byte of a record is stored, or finds the buffer full (R203, R204, R246). -/
theorem storeOrOverflow_failsIdle {d : Byte} :
    EndsIn (FailsIdle s) (if s.rxLen < s.cfg.rxcap then storeRecord d s else .next (resetOverflow s)) := by
  have hidle : FailedIdle .overflow s { emit (.fail .overflow) s with rxLen := 0 } :=
    failedIdle_of_emptied h hphase hraw nofun rfl
  split
  next hroom =>
    rw [storeRecord_of_lt hroom]
    exact .inl (.refl s)
  · unfold resetOverflow
    split
    · exact .inr ⟨.overflow, hidle⟩
    · exact .inr ⟨.overflow, hidle.acknowledge ackErrByte⟩

end

/-- The accounts of an active raw payload agree, so its bytes never fail (R262, R264). -/
theorem execRawData_recordsNone {d : Byte} {s : State} (h : Inv s) (hactive : 0 < s.rawRemaining) :
    EndsIn (Records [] s) (execRawData d s) := by
  rw [execRawData_of_agree (h.raw_active hactive).1 hactive]
  have hstored : Records [] s (rawAdvance (storeByte s .fb s.rawOffset d)) := Records.refl s
  split
  · exact ((hstored.emit (e := .publish) rfl).emit (e := .linkOut ackOkByte) rfl).of_trace (postPublish_trace _)
  · exact hstored

theorem rxStep_failsIdle {s : State} (h : Inv s) : EndsIn (FailsIdle s) (rxStep s) := by
  unfold rxStep
  split
  · unfold rxEncoderOp
    split
    · exact (encoderOp_recordsNone s).imp fun _ => .inl
    · exact endsIn_fault
  next hphase =>
    split
    · exact .inl (.refl s)
    next d rest _ =>
      have hnext := h.consumeLink d rest
      refine EndsIn.imp (P := FailsIdle (consumeLink d rest s)) ?_ fun t => FailsIdle.of_consumeLink
      generalize linkOp s d = i, linkOp_class s d = hclass
      cases hclass with
      | cobsTerm hf => exact execCobsTerm_failsIdle hnext hphase (h.raw_inactive_of_cobs hf)
      | cobsData hf => exact storeOrOverflow_failsIdle hnext hphase (h.raw_inactive_of_cobs hf)
      | rawData hf hactive => exact (execRawData_recordsNone hnext hactive).imp fun _ => .inl
      | textLf hf hraw => exact execTextLf_failsIdle hnext hphase hraw
      | textData hf hraw => exact storeOrOverflow_failsIdle hnext hphase hraw
      | textCr | textSent1 => exact .inl (.refl _)

/-! ## Every turn -/

theorem turnStep_failsIdle {s : State} (h : Inv s) (turn : Turn) : EndsIn (FailsIdle s) (turnStep turn s) := by
  cases turn with
  | rx => exact rxStep_failsIdle h
  | rf => exact (rfStep_recordsNone s).imp fun _ => .inl
  | env m => cases m <;> exact .inl (.refl s)

/-- Settles O60: the use of a turn records nothing, and what the turn records is nothing or one failure. -/
theorem failureLeavesDecoderIdle : Obligations.FailureLeavesDecoderIdle := by
  intro s t h hstep
  have hfails := (turnStep_failsIdle h.nextTurn _).of_eq (turnStep_of_step hstep)
  rw [nextTurn_snd_eq s] at hfails
  rcases hfails with ⟨es, htrace, hkinds⟩ | ⟨k, hidle⟩
  · have noFailure : ∀ k, .fail k ∉ es := fun k hk => by simpa [hkinds] using mem_failuresOf.mpr hk
    exact ⟨es, htrace, (length_filter_fails es).trans_le (by simp [hkinds]), noFailure _,
      fun k hk => absurd hk (noFailure k)⟩
  · obtain ⟨es, htrace, hkinds⟩ := hidle.records
    have only : ∀ k', .fail k' ∈ es → k' = k := fun k' hk' => by simpa [hkinds] using mem_failuresOf.mpr hk'
    exact ⟨es, htrace, (length_filter_fails es).trans_le (by simp [hkinds]), fun hk => hidle.kind (only _ hk).symm,
      fun _ _ => ⟨hidle.record_empty, hidle.raw_remaining, hidle.raw_offset, hidle.handoff, hidle.phase, hidle.pass⟩⟩

end Sys2Proof.Machine
end

section
/-! PROOFS. The canonical Base64 text of a frame (R256): its length, that it holds no terminator, and that the reference
decoder of a record gives the frame back, group by group as the encoder writes them. -/

namespace Sys2Proof.Machine

/-! ## Symbols -/

/-- The alphabet's table is read back by the value of a symbol (R103, R241). -/
theorem b64Val_b64Symbol : ∀ v < 64, b64Val (b64Symbol v) = some (BitVec.ofNat 6 v) := by decide

theorem sextets_b64Symbol_cons {v : Nat} (hv : v < 64) (record : List Byte) :
    sextets (b64Symbol v :: record) = v :: sextets record := by
  rw [sextets_cons, sextets_singleton, b64Val_b64Symbol v hv, Option.map_some, BitVec.toNat_ofNat, Nat.mod_eq_of_lt hv]
  rfl

theorem sextets_padByte_cons (record : List Byte) : sextets (padByte :: record) = sextets record := by
  have skipped : b64Val padByte = none := by decide
  rw [sextets_cons, sextets_singleton, skipped]
  rfl

/-! ## Its length and its bytes -/

/-- Four symbols for each group of three bytes, the last padded (R256). -/
theorem length_b64Encode (frame : List Byte) : (b64Encode frame).length = 4 * ((frame.length + 2) / 3) := by
  fun_induction b64Encode frame with
  | case1 => rfl
  | case2 | case3 => simp
  | case4 a b c rest ih =>
    simp only [List.length_cons, ih]
    omega

/-- The text is made of the pad and the symbols of sextets. -/
theorem forall_mem_b64Encode {P : Byte → Prop} (hpad : P padByte) (hsymbol : ∀ v < 64, P (b64Symbol v))
    (frame : List Byte) : ∀ d ∈ b64Encode frame, P d := by
  fun_induction b64Encode frame with
  | case1 => exact nofun
  | case2 a =>
    have ha := a.isLt
    simp only [List.forall_mem_cons]
    exact ⟨hsymbol _ (by omega), hsymbol _ (by omega), hpad, hpad, nofun⟩
  | case3 a b =>
    have ha := a.isLt
    have hb := b.isLt
    simp only [List.forall_mem_cons]
    exact ⟨hsymbol _ (by omega), hsymbol _ (by omega), hsymbol _ (by omega), hpad, nofun⟩
  | case4 a b c rest ih =>
    have ha := a.isLt
    have hb := b.isLt
    have hc := c.isLt
    simp only [List.forall_mem_cons]
    exact ⟨hsymbol _ (by omega), hsymbol _ (by omega), hsymbol _ (by omega), hsymbol _ (by omega), ih⟩

/-- A byte of no value is no symbol, so the text holds no such byte but the pad. -/
theorem not_mem_b64Encode {d : Byte} (frame : List Byte) (hvalue : b64Val d = none) (hpad : d ≠ padByte) :
    d ∉ b64Encode frame := by
  have symbol_ne : ∀ v < 64, b64Symbol v ≠ d := by
    rintro v hv rfl
    cases (b64Val_b64Symbol v hv).symm.trans hvalue
  exact fun h => forall_mem_b64Encode (P := (· ≠ d)) hpad.symm symbol_ne frame d h rfl

/-! ## The round trip -/

theorem ofNat_eq_byte {n : Nat} {a : Byte} (h : n = a.toNat) : BitVec.ofNat 8 n = a := by
  rw [h, BitVec.ofNat_toNat, BitVec.setWidth_eq]

/-- The bits of the frame's bytes are cut into sextets and joined again (R104, R256). -/
theorem textPayload_b64Encode (frame : List Byte) : textPayload (b64Encode frame) = frame := by
  change sextetBytes (sextets (b64Encode frame)) = frame
  fun_induction b64Encode frame with
  | case1 => rfl
  | case2 a =>
    have ha := a.isLt
    simp (disch := omega) only [sextets_b64Symbol_cons, sextets_padByte_cons]
    exact congrArg ([·]) (ofNat_eq_byte (by omega))
  | case3 a b =>
    have ha := a.isLt
    have hb := b.isLt
    simp (disch := omega) only [sextets_b64Symbol_cons, sextets_padByte_cons]
    exact congrArg₂ ([·, ·]) (ofNat_eq_byte (by omega)) (ofNat_eq_byte (by omega))
  | case4 a b c rest ih =>
    have ha := a.isLt
    have hb := b.isLt
    have hc := c.isLt
    simp (disch := omega) only [sextets_b64Symbol_cons]
    rw [sextetBytes, ih, ofNat_eq_byte (a := a) (by omega), ofNat_eq_byte (a := b) (by omega),
      ofNat_eq_byte (a := c) (by omega)]

/-- Settles O26: `DEC.TEXT` follows the reference decoder, which inverts the encoder. -/
theorem textRoundTrip : Obligations.TextRoundTrip := by
  intro s frame hlen
  refine ⟨length_b64Encode frame, not_mem_b64Encode frame (by decide) (by decide),
    not_mem_b64Encode frame (by decide) (by decide), fun hrecord hcap => ?_⟩
  obtain ⟨t, hexec, -, -, -, -, hdecoded⟩ := textDecodeCompletesInBounds s hcap
  obtain ⟨hposition, hwritten, hok, -⟩ := hdecoded _ hrecord
  rw [textPayload_b64Encode] at hposition hwritten hok
  refine ⟨t, hexec, hok.mpr hlen, fun j hj => ?_⟩
  rw [hwritten j (by rw [hposition]; omega), List.getElem?_eq_getElem hj, List.getD_eq_getElem _ _ hj]

end Sys2Proof.Machine
end

section
/-! PROOFS. The text framing's line feed (R244), the symbols that output nothing (R243, R245, R253, R254), and the start
and the failure of a raw payload (R260, R262, R303). -/

namespace Sys2Proof.Machine

/-! ## The end of a record -/

theorem exec_textLf_of_decode {s d : State} (h : execDecText s = .next d) :
    exec .textLf s = .next (afterText d) := by
  change andThen (execDecText s) (fun t => .next (afterText t)) = _
  rw [h, andThen_next]

/-- A failed record is emptied and answered with `E` (R211, R244). -/
theorem afterText_of_failed {d : State} (h : d.dec.status ≠ .ok) :
    afterText d = { d with dec := DecLocals.idle, rxLen := 0, trace := d.trace ++ [.linkOut ackErrByte] } := if_neg h

/-- A decoded frame is published and acknowledged before the handoff that may take it (R244, R284). -/
theorem afterText_of_ok {d : State} (h : d.dec.status = .ok) : afterText d = postPublish
    { d with
      dec := DecLocals.idle, rxLen := 0, hfNew := true, trace := d.trace ++ [.publish, .linkOut ackOkByte] } := by
  rw [afterText, if_pos h]
  simp [acknowledge, publish, emit, resetAccum, endDecode]

/-- Settles O21, by what the decode reports and the placement of the encoder. -/
theorem lineFeedAcknowledges : Obligations.LineFeedAcknowledges := by
  intro s h
  obtain ⟨d, hdec, hreport⟩ := execDecText_reports h
  have hcfg : d.cfg = s.cfg := by rw [hreport.others]
  refine ⟨d, hdec, fun hfailed => ?_, fun hok hp => ?_, fun hok hp => ?_⟩ <;> rw [exec_textLf_of_decode hdec]
  · rw [afterText_of_failed hfailed, ackErrByte]
  · rw [afterText_of_ok hok, postPublish_refresh (by rwa [hcfg]), ackOkByte]
  · rw [afterText_of_ok hok, postPublish_receive (by rwa [hcfg]) rfl, ackOkByte]

/-! ## Symbols that output nothing -/

/-- Settles O22: a sextet is pushed, and only the fourth outputs its group. -/
theorem symbolsAccumulateSextets : Obligations.SymbolsAccumulateSextets := by
  intro s i v hwf hv hk
  obtain ⟨hexec, hlt⟩ := exec_of_sextet hwf hv s
  have hshort : (pushSextet (BitVec.ofNat 6 v) s).dec.k ≠ 4 := hk
  rw [hexec, acceptSextet, if_neg hshort, ← toNat_acc_pushSextet hlt, BitVec.ofNat_toNat, BitVec.setWidth_eq]
  rfl

/-- Settles O19: a carriage return is no part of a record (R245). -/
theorem carriageReturnIsIgnored : Obligations.CarriageReturnIsIgnored := fun _ => rfl

/-- Settles O25: both classes are skipped (R253, R254). -/
theorem padAndInvalidAreSkipped : Obligations.PadAndInvalidAreSkipped := fun _ _ => ⟨rfl, rfl⟩

/-! ## Raw payload -/

/-- Settles O27: the payload's length is `FRAME_BYTES` (R12, R260). -/
theorem sentinelStartsRawPayload : Obligations.SentinelStartsRawPayload := fun _ => rfl

/-- `RAW.DATA` with broken accounts stores nothing (R262). -/
theorem execRawData_of_disagree {d : Byte} {s : State}
    (h : ¬ (s.rawOffset < frameBytes s.cfg ∧ s.rawOffset + s.rawRemaining = frameBytes s.cfg)) :
    execRawData d s = .next (accountingReset s) := by
  have hagree : ¬ rawAccountsAgree s = true := by
    rwa [rawAccountsAgree, Bool.and_eq_true, decide_eq_true_eq, decide_eq_true_eq]
  exact if_neg hagree

theorem accountingReset_eq (s : State) :
    accountingReset s =
      { s with
        rawRemaining := 0, rawOffset := 0, rxLen := 0,
        trace := s.trace ++ [.fail .accounting, .linkOut ackErrByte] } := by
  simp only [accountingReset, acknowledge, emit, List.append_assoc, List.singleton_append]

/-- Settles O30: the check comes before the store, and its failure is the accounting reset (R303). -/
theorem brokenAccountingResets : Obligations.BrokenAccountingResets := by
  intro s d h
  exact (execRawData_of_disagree h).trans (by rw [accountingReset_eq, ackErrByte])

end Sys2Proof.Machine
end

section
/-! PROOFS. The frame handoff: the flag that a publish sets and a take tests and clears (R280, R281), and the newest
frame taken once (R282, R288). -/

namespace Sys2Proof.Machine

theorem exec_hfPublish (s : State) : exec .hfPublish s = .next (publish s) := rfl

theorem exec_hfTake (s : State) : exec .hfTake s = .next (takeIfNew s) := rfl

/-- Settles O49: a publish sets the flag and emits its event, a take moves the flag into its answer. -/
theorem publishSetsAndTakeClears : Obligations.PublishSetsAndTakeClears := by
  intro s
  constructor
  · rw [exec_hfPublish, publish, emit]
  · rw [exec_hfTake, takeIfNew]

/-- A take reads and writes no byte of a frame: what `FB` holds then makes no difference to it (R288). -/
theorem takeIfNew_with_fb (s : State) (m : Memory) :
    takeIfNew { s with fb := m } = { takeIfNew s with fb := m } := rfl

/-- Settles O50: the second publish finds the flag set and leaves it set, so that one take answers both publishes. -/
theorem newestFrameTakenOnce : Obligations.NewestFrameTakenOnce := by
  intro s
  let b := publish (publish s)
  let c := takeIfNew b
  have hfirst : c.taken = true := by rw [takeIfNew_taken, publish_hfNew]
  have hfb : c.fb = s.fb := by rw [takeIfNew_fb, publish_fb, publish_fb]
  have hsecond : (takeIfNew c).taken = false := by rw [takeIfNew_taken, takeIfNew_hfNew]
  refine ⟨publish s, b, c, takeIfNew c, exec_hfPublish _, exec_hfPublish _, exec_hfTake _, exec_hfTake _,
    hfirst, hfb, hsecond, takeIfNew_hfNew _, fun m => ?_⟩
  rw [exec_hfTake, takeIfNew_with_fb]

end Sys2Proof.Machine
end
